-- ==== Sys2Proof/Word.lean ====
section
/-! DEFINITION. The word types of the TLS-4800 and their plainest arithmetic (R4, R6). -/

namespace Sys2Proof

/-- A byte of memory. -/
abbrev Byte := BitVec 8
/-- A 32-bit word: a register, a descriptor word, an FP32 value (R10, R37). -/
abbrev W32 := BitVec 32
/-- A 64-bit value (R12). -/
abbrev W64 := BitVec 64
/-- The words of a descriptor or entry, word 0 first (R4). -/
abbrev Words := List W32
/-- A run of bytes, lowest address first (R6). -/
abbrev Bytes := List Byte

/-- A sparse store: pairs of a key and a value, keys strictly rising, no pair equal to what an absent key reads as. -/
abbrev Store (α : Type) := List (Nat × α)

/-- Word `i` of a list of words; a word past the end is zero. -/
def wordAt (ws : Words) (i : Nat) : W32 := ws.getD i 0

/-- Bits [msb:lsb] of a word as a number (R5). -/
def bits (w : W32) (msb lsb : Nat) : Nat := (w.toNat >>> lsb) % 2 ^ (msb + 1 - lsb)

/-- Bit [n] of a word (R5). -/
def bit (w : W32) (n : Nat) : Bool := w.getLsbD n

/-- The number of a Boolean bit. -/
def b2n (b : Bool) : Nat := if b then 1 else 0

/-- The 64-bit value in words `i` (low) and `i + 1` (high) (R4). -/
def dword (ws : Words) (i : Nat) : Nat := (wordAt ws i).toNat + (wordAt ws (i + 1)).toNat * 2 ^ 32

end Sys2Proof
end

