-- ==== Sys2Proof/Syntax.lean ====
section
/-! DEFINITION. The commands of the TLS-4800: one constructor of `Instr` for each row of spec/opcode_table.json,
with the operands the row names. What the device reads from outside itself (host memory, a peer's packet, a sensor)
arrives as an operand. -/

namespace Sys2Proof

/-- An Adtever packet (R440): the eight words of its header and its data. -/
structure Packet where
  hdr  : Words
  data : Bytes
  deriving DecidableEq, Repr

/-- What arrives with a flit (R437, R438, R447): its control word, how many codewords did not decode, how many were corrected. -/
structure FlitObs where
  ctl       : W64
  failed    : Nat
  corrected : Nat
  deriving DecidableEq, Repr

/-- What a read of a pair's doorbell line and of the entry at SQ_HEAD returns (R495, R501). -/
structure DoorbellObs where
  sqTail : W32
  cqHead : W32
  entry  : Words
  deriving DecidableEq, Repr

/-- How a COPY's host accesses went (R508, R532): bytes read from the host (DIR 0), the 64-byte lines of them that came
poisoned, and whether a host access failed. -/
structure CopyObs where
  data     : Bytes
  poisoned : List Nat
  hostFail : Bool
  deriving DecidableEq, Repr

/-- ECC events in the memories of a core while a command reads them (R98, R144). -/
structure CoreEcc where
  corrected : Nat
  uncorr    : Bool
  deriving DecidableEq, Repr

/-- The end of a DMA: its number, and the ECC events of the Field it read. -/
structure DmaObs where
  id  : Nat
  ecc : CoreEcc
  deriving DecidableEq, Repr

/-- A core position of a plain, and the ECC events of what the core read. -/
structure CoreObs where
  core : Fin 16
  ecc  : CoreEcc
  deriving DecidableEq, Repr

/-- The exchange of a norm command: its number, and the ECC events in one of its cores. -/
structure RankObs where
  id   : Nat
  core : Fin 16
  ecc  : CoreEcc
  deriving DecidableEq, Repr

/-- A wait whose limit expires (R197, R465): the WAIT of a plain (`coll` none), or the wait of its COLL of that number. -/
structure WaitObs where
  plain : Fin 16
  coll  : Option Nat
  deriving DecidableEq, Repr

/-- What the scrubber or another reader finds in a line (R400, R401, R402): in memory, or in its MSC copy. -/
inductive LineObs where
  | clean
  | corrected
  | uncorrectable
  | mscUncorrectable
  | mscCorrected
  deriving DecidableEq, Repr

/-- How training of a link ended (R484, R486): with the partner's ID if it is a device, or with a bad module. -/
inductive TrainObs where
  | up (peer : Option (BitVec 12))
  | badModule
  deriving DecidableEq, Repr

/-- The module types of R394 and what else fits the socket. -/
inductive DimmType where
  | rdimm
  | udimm
  | sodimm
  | lrdimm
  | mrdimm
  deriving DecidableEq, Repr

/-- One module as its SPD data describes it (R394, R434): its type, and its capacity in bytes. -/
structure Rdimm where
  type     : DimmType
  bytes    : Nat
  ranksM1  : BitVec 2
  width    : BitVec 2
  stack    : BitVec 2
  speed    : Nat
  ecc      : Bool
  deriving DecidableEq, Repr

/-- A cage module as the inventory of P4 or the end of its reset finds it (R486, R628). -/
structure CageObs where
  present : Bool
  media   : BitVec 3
  tempC   : BitVec 8
  fault   : Bool
  deriving DecidableEq, Repr

/-- What a bring-up phase finds of the hardware (R628, R632). -/
structure BringupObs where
  dieOk     : Bool
  d2dOk     : Bool
  stacksOk  : BitVec 12
  rdimms    : List (Option Rdimm)
  sensors   : Nat
  smbusAddr : BitVec 2
  cages     : List CageObs
  ethCages  : List CageObs
  deriving DecidableEq, Repr

/-- What the PCIe link trains to (R490, R533). -/
structure PcieObs where
  cxl   : Bool
  cache : Bool
  mem   : Bool
  width : BitVec 5
  rate  : BitVec 8
  deriving DecidableEq, Repr

/-- Kinds of answer a requester transfer receives on a queue pair (R525, R531). -/
inductive RdmaAnswer where
  | readData (data : Bytes)
  | ack
  | nak
  | sequenceNak
  deriving DecidableEq, Repr

/-- An answer on a queue pair, and whether it carries the CE mark (R529). -/
structure RdmaRsp where
  answer : RdmaAnswer
  ce     : Bool
  deriving DecidableEq, Repr

/-- What the headers of a request on a queue pair say beside its operands (R525, R529): its packet sequence number and the CE mark. -/
structure ReqMark where
  psn : BitVec 24
  ce  : Bool
  deriving DecidableEq, Repr

/-- What the receiver of a port finds with a frame (R524, R538): a bad frame check sequence, and the codewords corrected and not correctable since the
frame it reported last. -/
structure FrameObs where
  port      : Fin 2
  fcsBad    : Bool
  corrected : Nat
  failed    : Nat
  deriving DecidableEq, Repr

/-- The three tables behind select registers (R537). -/
inductive EthTable where
  | gid
  | qp
  | mr
  deriving DecidableEq, Repr

/-- Alarm sources (R650). -/
inductive AlarmSrc where
  | vglitch
  | cglitch
  | temp
  | mesh
  | debug
  deriving DecidableEq, Repr

/-- The path of a host access to the window (R516). -/
inductive WinPath where
  | bar4
  | hdm
  deriving DecidableEq, Repr

/-- Where a host access meets the window (R516): its path and its offset. -/
structure WinAddr where
  path : WinPath
  off  : Nat
  deriving DecidableEq, Repr

/-- A configuration request (R487, R630): a read of a word, or a write of the bytes of a word that `be` enables. -/
inductive CfgReq where
  | read (off : Nat)
  | write (off : Nat) (value : W32) (be : BitVec 4)
  deriving DecidableEq, Repr

/-- Interfaces of the management core (R657, R661, R666). -/
inductive MgtIface where
  | header
  | vdm
  | doe
  | mailbox
  deriving DecidableEq, Repr

/-- Back-invalidations that end (R517, R519): the dirty lines that the host gives back, by window offset. -/
inductive BackInv where
  | move (dirty : List (Nat × Bytes))
  | biasPage (page : Nat) (dirty : List (Nat × Bytes))
  | line (off : Nat)
  deriving DecidableEq, Repr

/-- A component of a PLDM firmware update (R641, R658): the part it is for and its length in bytes. -/
structure Component where
  plainPart : Bool
  bytes     : Nat
  deriving DecidableEq, Repr

/-- MCTP control requests (R657). -/
inductive MctpReq where
  | setEid (eid : BitVec 8)
  | getEid
  | getVersion
  | getTypes
  | other
  deriving DecidableEq, Repr

/-- The commands of the device. In every constructor `p` is a plain, `v` a requester (0 to 15 a context view, 16 the
privileged map, 17 the management core), `r` a ring pair, `n` a link, `k` a col and `e` a submission entry of 16 words; `lost` numbers the free contents
that a failed DDR5 tier is left with (R398, log entry 83). A configuration request is a read of the first word unless it says otherwise. -/
inductive Instr where
  | matmul (p : Fin 16)
  | drain (p : Fin 16)
  | prefetch (p : Fin 16)
  | wgrad (p : Fin 16)
  | tileLoad (p : Fin 16)
  | normFwd (p : Fin 16)
  | normBwd (p : Fin 16)
  | statSum (p : Fin 16)
  | attnFwd (p : Fin 16)
  | attnBwd (p : Fin 16)
  | attnMerge (p : Fin 16)
  | signal (p : Fin 16)
  | wait (p : Fin 16)
  | stepEnd (p : Fin 16)
  | pageWalk (p : Fin 16)
  | pageWalkEntriesRead (p : Fin 16)
  | dma (p : Fin 16)
  | dmaEnd (p : Fin 16) (o : DmaObs)
  | coll (p : Fin 16)
  | collRankTableRead (p : Fin 16) (id : Nat)
  | collFreeMet (p : Fin 16) (id : Nat)
  | collArriveMet (p : Fin 16) (id : Nat)
  | collPhase1Met (p : Fin 16) (id : Nat)
  | collEnd (p : Fin 16) (id : Nat)
  | cmpTable (p : Fin 16)
  | cmpTableSlotWaitEnd (p : Fin 16)
  | snapshot (p : Fin 16)
  | issueFullEnd (p : Fin 16)
  | streamFetchEnd (p : Fin 16)
  | fenceMet (p : Fin 16)
  | waitDone (p : Fin 16)
  | syncTimeout (w : WaitObs)
  | coreCmdStart (p : Fin 16) (c : Fin 16) (ecc : CoreEcc)
  | tileCmdEnd (p : Fin 16) (id : Nat)
  | specMapCheck (p : Fin 16) (o : CoreObs)
  | specCommit (p : Fin 16) (c : Fin 16)
  | rankExchange (p : Fin 16) (o : RankObs)
  | bgPrefetchPromote (p : Fin 16) (id : Nat)
  | rxWrite (n : Fin 64) (pk : Packet)
  | rxWriteAck (n : Fin 64) (pk : Packet)
  | rxWriteNak (n : Fin 64) (pk : Packet)
  | rxSignal (n : Fin 64) (pk : Packet)
  | rxSignalAck (n : Fin 64) (pk : Packet)
  | rxSignalNak (n : Fin 64) (pk : Packet)
  | rxCollWrite (n : Fin 64) (pk : Packet)
  | rxCollSignal (n : Fin 64) (pk : Packet)
  | rxStop (n : Fin 64) (pk : Packet)
  | rxCkpt (n : Fin 64) (pk : Packet)
  | flitReceive (n : Fin 64) (f : FlitObs)
  | replayTimeout (n : Fin 64)
  | linkReplayLimit (n : Fin 64)
  | linkRxLoss (n : Fin 64)
  | packetSettleTimeout (reqId : BitVec 16)
  | lnkCtrlEn (n : Fin 64) (en : Bool)
  | linkTrained (n : Fin 64) (t : TrainObs)
  | colModReset (k : Fin 16) (ended : Option CageObs)
  | colModPwr (k : Fin 16) (on : Bool)
  | lnkCtxReshard (v : Nat) (m : Fin 16) (epoch : BitVec 16)
  | d2dRetryLimit
  | doorbellPoll (r : Fin 17) (o : DoorbellObs)
  | doorbellLineLost (r : Fin 17) (o : DoorbellObs)
  | staleReread (r : Fin 17) (e : Words)
  | descStale (r : Fin 17) (e : Words)
  | nop (r : Fin 17) (e : Words)
  | arm (r : Fin 17) (e : Words)
  | start (r : Fin 17) (e : Words)
  | pause (r : Fin 17) (e : Words)
  | disarm (r : Fin 17) (e : Words)
  | syncAdd (r : Fin 17) (e : Words)
  | copy (r : Fin 17) (e : Words)
  | copyComplete (r : Fin 17) (o : CopyObs)
  | netXfer (r : Fin 17) (e : Words)
  | netXferComplete (r : Fin 17)
  | snapRequest (r : Fin 17) (e : Words)
  | ckpCommit (r : Fin 17) (e : Words)
  | ckpRestore (r : Fin 17) (e : Words)
  | fwActivate (r : Fin 17) (e : Words)
  | overflowQueuePost (r : Fin 17)
  | irqCoalesce (r : Fin 17)
  | hostReadTimeout (r : Fin 17)
  | pcieLinkDown
  | hifPairCtrlEn (v : Nat) (r : Fin 17) (en : Bool)
  | hifPairCtrlDetach (v : Nat) (r : Fin 17)
  | functionLevelReset
  | perst
  | winRead (w : WinAddr) (len : Nat)
  | winWrite (w : WinAddr) (data : Bytes)
  | winMove (hi : W32)
  | winBiasSet (w : Fin 8) (value : W32)
  | rdmaWriteRequest (q : Fin 512) (rkey : W32) (va : W64) (data : Bytes) (k : ReqMark)
  | rdmaReadRequest (q : Fin 512) (rkey : W32) (va : W64) (len : Nat) (k : ReqMark)
  | rdmaResponse (q : Fin 512) (a : RdmaRsp)
  | qpAckTimeout (q : Fin 512)
  | cnpReceive (q : Fin 512)
  | cnpRateRaise (q : Fin 512)
  | arpRequest (port : Fin 2) (ip : BitVec 32)
  | neighbourSolicitation (port : Fin 2) (gid : BitVec 128)
  | ethFrameDrop (f : FrameObs)
  | ethSelLoad (t : EthTable) (index : BitVec 12)
  | ethSelCommit (t : EthTable) (index : BitVec 12)
  | schCtxCtrlStart (v : Nat) (m : Fin 16) (pause : Bool)
  | schCtxCtrlDisarm (v : Nat) (m : Fin 16) (pause : Bool)
  | schCtxCtrlPause (v : Nat) (m : Fin 16) (pause : Bool)
  | plnCtrlResume (v : Nat) (p : Fin 16)
  | synObjValueWrite (value : W32)
  | cowActiveSet (ctx : Fin 16)
  | cowActiveClear (ctx : Fin 16)
  | cowPageCopy
  | cowPoolWaitEnd (slot : Nat)
  | scrubFull
  | scrubLine (addr : W64) (o : LineObs)
  | scrubPassEnd (full : Bool)
  | hbmTempHigh (n : Fin 12) (tempC : BitVec 8)
  | hbmTempNormal (n : Fin 12) (tempC : BitVec 8)
  | hbmStackFail (n : Fin 12)
  | ddrTempHigh (n : Fin 8) (tempC : BitVec 8)
  | ddrTempNormal (n : Fin 8) (tempC : BitVec 8)
  | ddrChannelFail (n : Fin 8) (lost : Nat)
  | eccRateCheck
  | ckpDrainRead
  | ckpPrepare
  | ageMeasure (p : Fin 16) (slackPs : BitVec 16) (roCount : BitVec 16)
  | pwrMeasure (watts : BitVec 16)
  | pwrClockLower
  | pwrClockRaise
  | pwrFloor
  | thermalThrottle (tempC : BitVec 8)
  | thermalRecover (tempC : BitVec 8)
  | rstThermal (tempC : BitVec 8)
  | powerUp
  | pwrEnRise
  | rstPowerOff
  | inputUndervolt
  | overcurrentTrip
  | rstN
  | warmN
  | rstCtrlCold
  | rstCtrlWarm
  | rstCtx (mask : BitVec 16)
  | ctxResetApply (m : Fin 16)
  | bringupPhaseEnd (o : BringupObs)
  | secAlarm (a : AlarmSrc)
  | dbgCtrlStop
  | dbgCtrlResume
  | scanOutDone
  | cntSelCapture (v : Nat) (value : W32)
  | cntGlbClear
  | logSelCapture (v : Nat) (seq : W32)
  | pairHiWrite (v : Nat) (off : Nat) (value : W32)
  | pairLoRead (v : Nat) (off : Nat)
  | regMisaligned (v : Nat) (off : Nat) (size : Nat) (write : Bool)
  | regWrite (v : Nat) (off : Nat) (value : W32)
  | getStatus (i : MgtIface) (token : BitVec 8)
  | getIdentity (i : MgtIface) (token : BitVec 8)
  | getSensor (i : MgtIface) (token : BitVec 8) (sensor : W32)
  | heartbeat (i : MgtIface) (token : BitVec 8) (word : W32)
  | keyErase (i : MgtIface) (token : BitVec 8) (word : W32)
  | fwCommit (i : MgtIface) (token : BitVec 8) (word : W32)
  | fullScrub (i : MgtIface) (token : BitVec 8)
  | debugChallenge (i : MgtIface) (token : BitVec 8)
  | debugUnlock (i : MgtIface) (token : BitVec 8) (request : Bytes)
  | longOperationEnd
  | hbTimeout
  | mctpControl (i : MgtIface) (q : MctpReq)
  | getTid (i : MgtIface)
  | setTid (i : MgtIface) (tid : BitVec 8)
  | getPldmVersion (i : MgtIface) (type : BitVec 8)
  | getPldmTypes (i : MgtIface)
  | getPldmCommands (i : MgtIface) (type : BitVec 8)
  | getPdr (i : MgtIface) (sensor : Nat)
  | getSensorReading (i : MgtIface) (sensor : Nat)
  | queryDeviceIdentifiers (i : MgtIface)
  | getFirmwareParameters (i : MgtIface)
  | requestUpdate (i : MgtIface)
  | passComponentTable (i : MgtIface) (cs : List Component)
  | updateComponent (i : MgtIface) (c : Component)
  | requestFirmwareData (i : MgtIface) (off : Nat) (data : Bytes)
  | transferComplete (i : MgtIface)
  | verifyComplete (i : MgtIface)
  | applyComplete (i : MgtIface)
  | activateFirmware (i : MgtIface)
  | pldmGetStatus (i : MgtIface)
  | cancelUpdate (i : MgtIface)
  | getVersion (i : MgtIface)
  | getCapabilities (i : MgtIface)
  | negotiateAlgorithms (i : MgtIface)
  | getDigests (i : MgtIface)
  | getCertificate (i : MgtIface) (slot : Nat) (off : Nat) (len : Nat)
  | challenge (i : MgtIface) (slot : Nat) (nonce : Bytes)
  | getMeasurements (i : MgtIface) (index : BitVec 8) (signed : Bool) (nonce : Bytes)
  | keyExchange (i : MgtIface) (reqSession : BitVec 16) (share : Bytes)
  | finish (i : MgtIface) (session : W32) (macOk : Bool)
  | spdmHeartbeat (i : MgtIface) (session : W32)
  | keyUpdate (i : MgtIface) (session : W32)
  | endSession (i : MgtIface) (session : W32)
  | chunkGet (i : MgtIface) (chunk : Nat)
  | flashAccessComplete (ok : Bool)
  | backInvalidationDone (b : BackInv)
  | configurationRequest (q : CfgReq := .read 0)
  | pcieLinkUp (o : PcieObs)
  | pfcFrame (port : Fin 2) (prio : BitVec 8) (pause : BitVec 8)
  | thermalResetRelease (maxTempC : BitVec 8)
  deriving DecidableEq, Repr

end Sys2Proof
end

