-- ==== Sys2Proof/Machine/Store.lean ====
section
/-! DEFINITION. Sparse stores in one canonical form, and runs of bytes. -/

namespace Sys2Proof.Machine

/-- The value a store holds at key `k`; an unlisted key reads as `d k`. -/
def storeGet {α : Type} (d : Nat → α) : Store α → Nat → α
  | [], k => d k
  | (j, v) :: r, k => if k = j then v else if k < j then d k else storeGet d r k

/-- The store with `v` at key `k`, kept sorted and free of entries equal to the default. -/
def storePut {α : Type} [DecidableEq α] (d : Nat → α) : Store α → Nat → α → Store α
  | [], k, v => if v = d k then [] else [(k, v)]
  | (j, w) :: r, k, v =>
    if k < j then (if v = d k then (j, w) :: r else (k, v) :: (j, w) :: r)
    else if k = j then (if v = d k then r.dropWhile (fun e => e.1 ≤ k) else (k, v) :: r)
    else (j, w) :: storePut d r k v

/-- The canonical form of a store: keys strictly rising, no entry equal to the default. -/
abbrev storeWf {α : Type} (d : Nat → α) (st : Store α) : Prop :=
  st.Pairwise (fun a b => a.1 < b.1) ∧ ∀ e ∈ st, e.2 ≠ d e.1

/-- The values `vs` put at consecutive keys from `k` on. -/
def storePutRun {α : Type} [DecidableEq α] (d : Nat → α) (st : Store α) (k : Nat) : List α → Store α
  | [] => st
  | v :: vs => storePutRun d (storePut d st k v) (k + 1) vs

/-- The values at the `n` consecutive keys from `k` on. -/
def storeGetRun {α : Type} (d : Nat → α) (st : Store α) (k n : Nat) : List α :=
  (List.range n).map fun i => storeGet d st (k + i)

/-- The store without its keys from `lo` up to, and not including, `hi`. -/
def storeClear {α : Type} (st : Store α) (lo hi : Nat) : Store α :=
  st.filter fun e => ! (lo ≤ e.1 && e.1 < hi)

/-- The little-endian number of a run of bytes (R6). -/
def leNat : Bytes → Nat
  | [] => 0
  | b :: r => b.toNat + 256 * leNat r

/-- The `n` low bytes of a number, lowest first (R6). -/
def leBytes : Nat → Nat → Bytes
  | 0, _ => []
  | n + 1, x => BitVec.ofNat 8 x :: leBytes n (x / 256)

/-- The big-endian number of a run of bytes. -/
def beNat (bs : Bytes) : Nat := leNat bs.reverse

/-- The `n` low bytes of a number, highest first. -/
def beBytes (n x : Nat) : Bytes := (leBytes n x).reverse

/-- The 32-bit words of a run of bytes (R4, R6). -/
def wordsOf (n : Nat) (bs : Bytes) : Words :=
  (List.range n).map fun i => BitVec.ofNat 32 (leNat ((bs.drop (4 * i)).take 4))

/-- The bytes of a list of words (R4, R6). -/
def bytesOf (ws : Words) : Bytes := ws.flatMap fun w => leBytes 4 w.toNat

/-- A bit of a run of bytes, with bit `n` at bit `n % 8` of byte `n / 8`. -/
def bitOf (bs : Bytes) (n : Nat) : Bool := (bs.getD (n / 8) 0).getLsbD (n % 8)

/-- The bytes of a list of bits, the first bit at bit 0 of byte 0; `n` bytes. -/
def packBits : Nat → List Bool → Bytes
  | 0, _ => []
  | n + 1, l => BitVec.ofNat 8 ((l.take 8).foldr (fun b a => b2n b + 2 * a) 0) :: packBits n (l.drop 8)

/-- A number rounded up to a multiple of `m`. -/
def roundUp (m x : Nat) : Nat := (x + m - 1) / m * m

/-- The quotient rounded up. -/
def ceilDiv (x m : Nat) : Nat := (x + m - 1) / m

/-- A value replaced at one place of a list. -/
def listSet {α : Type} (l : List α) (i : Nat) (v : α) : List α := l.set i v

/-- A counter of 32 bits that stops at its largest value. -/
def satAdd (w : W32) (n : Nat) : W32 := BitVec.ofNat 32 (min (2 ^ 32 - 1) (w.toNat + n))

end Sys2Proof.Machine
end

