-- ==== Sys2Proof/Machine/Float.lean ====
section
/-! DEFINITION. The floating-point formats, exact values, rounding and the vector arithmetic (R37 to R73, R78, R79). -/

namespace Sys2Proof.Machine

/-- The floating-point formats of R37. -/
inductive FFmt where
  | fp32
  | bf16
  | w12
  | e4m3
  | e5m2
  deriving DecidableEq, Repr

/-- Exponent bits of a format (R37). -/
def FFmt.ebits : FFmt → Nat
  | .fp32 => 8
  | .bf16 => 8
  | .w12 => 8
  | .e4m3 => 4
  | .e5m2 => 5

/-- Significand bits of a format (R37). -/
def FFmt.mbits : FFmt → Nat
  | .fp32 => 23
  | .bf16 => 7
  | .w12 => 3
  | .e4m3 => 3
  | .e5m2 => 2

/-- Exponent bias of a format (R37). -/
def FFmt.bias : FFmt → Nat
  | .e4m3 => 7
  | .e5m2 => 15
  | _ => 127

/-- The positive canonical NaN (R41). -/
def FFmt.nan : FFmt → Nat
  | .fp32 => 0x7FC00000
  | .bf16 => 0x7FC0
  | .w12 => 0x7FC
  | .e4m3 => 0x7F
  | .e5m2 => 0x7E

/-- The code of the largest finite value (R37). -/
def FFmt.maxFin : FFmt → Nat
  | .fp32 => 0x7F7FFFFF
  | .bf16 => 0x7F7F
  | .w12 => 0x7F7
  | .e4m3 => 0x7E
  | .e5m2 => 0x7B

/-- The weight of the sign bit. -/
def FFmt.signBit (f : FFmt) : Nat := 2 ^ (f.ebits + f.mbits)

/-- The exponent of the unit of a subnormal value (R37). -/
def FFmt.qmin (f : FFmt) : Int := 1 - (f.bias : Int) - (f.mbits : Int)

/-- An exact value: a NaN, an infinity, or (-1)^neg · m · 2^e. -/
inductive FVal where
  | nan
  | inf (neg : Bool)
  | fin (neg : Bool) (m : Nat) (e : Int)
  deriving DecidableEq, Repr

/-- The value a code of a format stands for (R37). -/
def fdec (f : FFmt) (n : Nat) : FVal :=
  let s : Bool := n / f.signBit % 2 = 1
  let e := n / 2 ^ f.mbits % 2 ^ f.ebits
  let m := n % 2 ^ f.mbits
  if e = 2 ^ f.ebits - 1 ∧ f ≠ .e4m3 then (if m = 0 then .inf s else .nan)
  else if f = .e4m3 ∧ e = 15 ∧ m = 7 then .nan
  else if e = 0 then .fin s m f.qmin
  else .fin s (m + 2 ^ f.mbits) (f.qmin + (e : Int) - 1)

/-- A magnitude m · 2^e against the grid of a format: the code of the value at or below it, and the part above that value
as a fraction rem / 2^shift of the spacing. Past the exponent range the code grows on. -/
def fgrid (f : FFmt) (m : Nat) (e : Int) : Nat × Nat × Nat :=
  let q := max (e + (Nat.log2 m : Int) - (f.mbits : Int)) f.qmin
  let base := (q - f.qmin).toNat * 2 ^ f.mbits
  if m = 0 then (0, 0, 0)
  else if q ≤ e then (base + m * 2 ^ (e - q).toNat, 0, 0)
  else
    let sh := (q - e).toNat
    (base + m / 2 ^ sh, m % 2 ^ sh, sh)

/-- The magnitude code of the nearest value, ties to even (R70), before the range is looked at. -/
def fnear (f : FFmt) (m : Nat) (e : Int) : Nat :=
  let (k, rem, sh) := fgrid f m e
  if 2 * rem > 2 ^ sh ∨ (2 * rem = 2 ^ sh ∧ k % 2 = 1) then k + 1 else k

/-- The code of infinity of a format that has one (R37). -/
def FFmt.infCode (f : FFmt) : Nat := (2 ^ f.ebits - 1) * 2 ^ f.mbits

/-- The largest magnitude code that rounding gives: infinity, or the largest finite value of E4M3, which has none (R37, R70, R78). -/
def FFmt.topCode (f : FFmt) : Nat := if f = .e4m3 then f.maxFin else f.infCode

/-- The sign put on a magnitude code. -/
def FFmt.sign (f : FFmt) (neg : Bool) (code : Nat) : Nat := if neg then f.signBit + code else code

/-- rne() (R70). -/
def rne (f : FFmt) : FVal → Nat
  | .nan => f.nan
  | .inf s => f.sign s f.infCode
  | .fin s m e => f.sign s (min (fnear f m e) f.topCode)

/-- sr() to a format with a random word `u` (R71, R72). -/
def srnd (f : FFmt) (u : Nat) : FVal → Nat
  | .nan => f.nan
  | .inf s => f.sign s f.infCode
  | .fin s m e =>
    let (k, rem, sh) := fgrid f m e
    if rem ≠ 0 ∧ f.maxFin ≤ k then rne f (.fin s m e)
    else f.sign s (if rem * 2 ^ 32 / 2 ^ sh + u ≥ 2 ^ 32 then k + 1 else k)

/-- m1 · 2^e1 > m2 · 2^e2. -/
def magGt (m1 : Nat) (e1 : Int) (m2 : Nat) (e2 : Int) : Bool :=
  let e := min e1 e2
  m1 * 2 ^ (e1 - e).toNat > m2 * 2 ^ (e2 - e).toNat

/-- x > y of exact values that are no NaN; false with a NaN. -/
def fgt : FVal → FVal → Bool
  | .nan, _ => false
  | _, .nan => false
  | .inf s, .inf t => !s && t
  | .inf s, .fin _ _ _ => !s
  | .fin _ _ _, .inf t => t
  | .fin s m e, .fin t n k =>
    let c := min e k
    let a : Int := m * 2 ^ (e - c).toNat
    let b : Int := n * 2 ^ (k - c).toNat
    (if s then -a else a) > (if t then -b else b)

/-- The exact product (R48), with IEEE 754 special results (R44). -/
def vmul : FVal → FVal → FVal
  | .nan, _ => .nan
  | _, .nan => .nan
  | .inf s, .inf t => .inf (s != t)
  | .inf s, .fin t m _ => if m = 0 then .nan else .inf (s != t)
  | .fin s m _, .inf t => if m = 0 then .nan else .inf (s != t)
  | .fin s m e, .fin t n k => .fin (s != t) (m * n) (e + k)

/-- The exact sum, with IEEE 754 special results and signs of zero under round to nearest (R44, R46). -/
def vadd : FVal → FVal → FVal
  | .nan, _ => .nan
  | _, .nan => .nan
  | .inf s, .inf t => if s = t then .inf s else .nan
  | .inf s, .fin _ _ _ => .inf s
  | .fin _ _ _, .inf t => .inf t
  | .fin s m e, .fin t n k =>
    let c := min e k
    let a : Int := m * 2 ^ (e - c).toNat
    let b : Int := n * 2 ^ (k - c).toNat
    let x := (if s then -a else a) + (if t then -b else b)
    if x = 0 then .fin (s && t) 0 c else .fin (decide (x < 0)) x.natAbs c

/-- The value with its sign turned. -/
def vneg : FVal → FVal
  | .nan => .nan
  | .inf s => .inf (!s)
  | .fin s m e => .fin (!s) m e

/-- The value times 2^n. -/
def vscale (n : Int) : FVal → FVal
  | .fin s m e => .fin s m (e + n)
  | v => v

/-- The exact value of an FP32 word. -/
def f32 (w : W32) : FVal := fdec .fp32 w.toNat

/-- rne_f32 of an exact value. -/
def toF32 (v : FVal) : W32 := BitVec.ofNat 32 (rne .fp32 v)

/-- FP32 +0, 1 and the canonical NaN, and the infinities. -/
def f32zero : W32 := 0
def f32one : W32 := 0x3F800000#32
def f32nan : W32 := 0x7FC00000#32
def f32inf : W32 := 0x7F800000#32
def f32ninf : W32 := 0xFF800000#32

/-- FP32 addition, subtraction and multiplication, each rounded once (R59). -/
def fadd (a b : W32) : W32 := toF32 (vadd (f32 a) (f32 b))
def fsub (a b : W32) : W32 := toF32 (vadd (f32 a) (vneg (f32 b)))
def fmul (a b : W32) : W32 := toF32 (vmul (f32 a) (f32 b))

/-- Fused multiply-add: a × b + c rounded once (R59). -/
def ffma (a b c : W32) : W32 := toF32 (vadd (vmul (f32 a) (f32 b)) (f32 c))

/-- The sign of an FP32 word turned; a NaN becomes the canonical NaN (R42). -/
def fneg (a : W32) : W32 := toF32 (vneg (f32 a))

/-- The quotient of exact values, with 64 bits more than its divisor has and a sticky bit below them. -/
def vdiv : FVal → FVal → FVal
  | .nan, _ => .nan
  | _, .nan => .nan
  | .inf _, .inf _ => .nan
  | .inf s, .fin t _ _ => .inf (s != t)
  | .fin s _ _, .inf t => .fin (s != t) 0 0
  | .fin s m e, .fin t n k =>
    if n = 0 then (if m = 0 then .nan else .inf (s != t))
    else
      let sh := 64 + Nat.log2 n
      let x := m * 2 ^ sh
      .fin (s != t) (2 * (x / n) + (if x % n = 0 then 0 else 1)) (e - k - sh - 1)

/-- FP32 division, rounded once (R59); `frecip` is the reciprocal (R61, R62). -/
def fdiv (a b : W32) : W32 := toF32 (vdiv (f32 a) (f32 b))
def frecip (a : W32) : W32 := fdiv f32one a

/-- The integer square root, found bit by bit from bit `n - 1` down, with `r` found so far. -/
def isqrtBits (x : Nat) : Nat → Nat → Nat
  | 0, r => r
  | n + 1, r => let t := r + 2 ^ n; isqrtBits x n (if t * t ≤ x then t else r)

/-- The largest r with r · r ≤ x. -/
def isqrt (x : Nat) : Nat := isqrtBits x (Nat.log2 x / 2 + 1) 0

/-- FP32 square root, rounded once (R59). -/
def fsqrt (a : W32) : W32 :=
  match f32 a with
  | .nan => f32nan
  | .inf s => if s then f32nan else f32inf
  | .fin s m e =>
    if m = 0 then a
    else if s then f32nan
    else
      let odd := e % 2 = 1
      let m' := (if odd then 2 * m else m) * 2 ^ 80
      let e' := (if odd then e - 1 else e) - 80
      let r := isqrt m'
      toF32 (.fin false (2 * r + (if r * r = m' then 0 else 1)) (e' / 2 - 1))

/-- The correctly rounded reciprocal square root (R61, R62). -/
def frsqrt (a : W32) : W32 :=
  match f32 a with
  | .nan => f32nan
  | .inf s => if s then f32nan else f32zero
  | .fin s m e =>
    if m = 0 then (if s then f32ninf else f32inf)
    else if s then f32nan
    else
      let odd := e % 2 = 1
      let m' := if odd then 2 * m else m
      let e' := if odd then e - 1 else e
      let r := isqrt (2 ^ 160 / m')
      toF32 (.fin false (2 * r + (if r * r * m' = 2 ^ 160 then 0 else 1)) (-(e' / 2) - 80 - 1))

/-- Whether an FP32 word is a NaN. -/
def fisNan (a : W32) : Bool := f32 a = .nan

/-- max and min of R63. -/
def fmax (a b : W32) : W32 :=
  match f32 a, f32 b with
  | .nan, _ => f32nan
  | _, .nan => f32nan
  | x, y => if fgt x y then a else if fgt y x then b else if a = b then a else f32zero
def fmin (a b : W32) : W32 :=
  match f32 a, f32 b with
  | .nan, _ => f32nan
  | _, .nan => f32nan
  | x, y => if fgt x y then b else if fgt y x then a else if a = b then a else 0x80000000#32

/-- −0 turned into +0 (R45). -/
def plusZero (a : W32) : W32 := if a = 0x80000000#32 then f32zero else a

/-- Whether a code of a format is +0 or −0 (R47). -/
def isZeroCode (f : FFmt) (n : Nat) : Bool := n % f.signBit = 0

/-- One level of the pairwise tree (R64). -/
def pairUp (g : W32 → W32 → W32) : List W32 → List W32
  | a :: b :: r => g a b :: pairUp g r
  | l => l

/-- `n` levels of the tree. -/
def treeLevels (g : W32 → W32 → W32) : Nat → List W32 → List W32
  | 0, l => l
  | n + 1, l => treeLevels g n (pairUp g l)

/-- A reduction within one 64-element row segment (R64); short segments carry padding (R66). -/
def treeReduce (g : W32 → W32 → W32) (pad : W32) (l : List W32) : W32 :=
  (treeLevels g 6 (l ++ List.replicate (64 - l.length) pad)).headD pad

/-- A reduction over row segments, one at a time from segment 0 (R65). -/
def segReduce (g : W32 → W32 → W32) (pad : W32) : List W32 → W32
  | [] => pad
  | a :: r => r.foldl g a

/-- The row segments of a list: 64 elements each. -/
def segments : Nat → List W32 → List (List W32)
  | 0, _ => []
  | n + 1, l => if l = [] then [] else l.take 64 :: segments n (l.drop 64)

/-- A reduction of a whole row (R64, R65, R66). -/
def rowReduce (g : W32 → W32 → W32) (pad : W32) (l : List W32) : W32 :=
  segReduce g pad ((segments (l.length / 64 + 1) l).map (treeReduce g pad))

/-- The sum and the maximum of a row. -/
def rowSum (l : List W32) : W32 := rowReduce fadd f32zero l
def rowMax (l : List W32) : W32 := rowReduce fmax f32ninf l

/-- The accumulator after one product (R49): exact product, one rounding, +0 for zero (R45). -/
def accStep (acc : W32) (a b : FVal) : W32 := plusZero (toF32 (vadd (f32 acc) (vmul a b)))

/-- The accumulator after a list of products in the order listed (R50). -/
def accChain (acc : W32) : List (FVal × FVal) → W32
  | [] => acc
  | (a, b) :: r => accChain (accStep acc a b) r

/-- The conversion of one element to FP8 with block scale `s` (R78, R79): the code, and whether it overflowed. -/
def toFp8 (f : FFmt) (u : Option Nat) (s : Int) (x : W32) : Nat × Bool :=
  match vscale (-s) (f32 x) with
  | .nan => (f.nan, false)
  | .inf neg => (f.sign neg (if f = .e4m3 then f.maxFin else f.infCode), true)
  | .fin neg m e =>
    match fdec f f.maxFin with
    | .fin _ mm me =>
      if magGt m e mm me then (f.sign neg f.maxFin, true)
      else ((match u with | none => rne f (.fin neg m e) | some w => srnd f w (.fin neg m e)), false)
    | _ => (f.maxFin, true)

/-- The scale of a scale byte: bits [6:0] in two's complement (R74). -/
def scaleOf (b : Byte) : Int := ((b.setWidth 7).toInt)

/-- The scale byte of a scale, bit [7] zero (R74). -/
def scaleByte (s : Int) : Byte := (BitVec.ofInt 7 s).setWidth 8

end Sys2Proof.Machine
end

