-- ==== Sys2Proof/Config.lean ====
section
/-! DEFINITION. What the spec leaves open: opaque constants of which nothing can be proved. -/

namespace Sys2Proof

/-- The free values, drawn in turn with State.free (log entry 1). -/
opaque Config.freeWord : Nat → W32

/-- The digest of the ROM, which measurement 1 shows (R649); the spec states no value. -/
opaque Config.romDigest : Bytes

/-- The digests of the four root public keys, which the fuses hold (R633); the spec states no key. -/
opaque Config.rootHash : Nat → Bytes

/-- The set of an MSC slice that a line falls in, taken modulo 512; the spec states none (log entry 129). -/
opaque Config.mscSet : Nat → Nat

/-- What a byte of the DDR5 tier holds after a channel failed (R398), for each failure; the spec calls it undefined (log entry 83). -/
opaque Config.lostByte : Nat → Nat → Byte

/-- The path MTU of the codes of PMTU that R537 does not list (log entry 149). -/
opaque Config.openMtu : Nat → Nat

/-- What a byte of the module's flash that nothing has written holds (log entry 146); the spec states no contents. -/
opaque Config.flashByte : Nat → Byte

/-- The certificates of slot 0 (R645, R646): the root, the device CA, the IDK certificate with its serial number, and the AK certificate with its key and the
digests of the ROM, the hub image and the plain image. -/
inductive Cert where
  | root
  | deviceCa
  | idk (serial : W64)
  | ak (key : Nat) (rom hub plain : Bytes)

/-- The DER encoding of a certificate (R646), and a signature of an attestation key over a message, with a number of its own (R648); the spec states no
key and no signature value (log entry 150). -/
opaque Config.der : Cert → Bytes
opaque Config.akSign : Nat → Bytes → Nat → Bytes

/-- The identification and class words of configuration space (log entry 134); the spec states no value. -/
opaque Config.pciId : Nat → W32

end Sys2Proof
end

