-- ==== Sys2Proof/Machine/Hash.lean ====
section
/-! DEFINITION. CRC-32 (R440), CRC-16 (R438) and SHA-512 (R157). -/

namespace Sys2Proof.Machine

/-- `n` steps of the reflected CRC-32 of IEEE 802.3. -/
def crc32Bits : Nat → Nat → Nat
  | 0, c => c
  | n + 1, c => crc32Bits n (if c % 2 = 1 then (c / 2) ^^^ 0xEDB88320 else c / 2)

/-- The running CRC-32 over bytes. -/
def crc32Run (c : Nat) : Bytes → Nat
  | [] => c
  | b :: r => crc32Run (crc32Bits 8 (c ^^^ b.toNat)) r

/-- The CRC-32 of IEEE 802.3 over bytes (R440, R477). -/
def crc32 (bs : Bytes) : Nat := crc32Run 0xFFFFFFFF bs ^^^ 0xFFFFFFFF

/-- The CRC-16 with polynomial 0x1021 and initial value 0xFFFF over the `n` low bits of `w`, the highest first (R438). -/
def crc16Bits (w : Nat) : Nat → Nat → Nat
  | 0, c => c
  | n + 1, c =>
    let b := w.testBit n != c.testBit 15
    crc16Bits w n (if b then (c * 2 % 65536) ^^^ 0x1021 else c * 2 % 65536)

/-- The CCRC of a control word: over bits [63:16] (R438). -/
def ccrc (w : W64) : Nat := crc16Bits (w.toNat / 65536) 48 0xFFFF

/-! ### SHA-512 -/

/-- The round constants. -/
def shaKs : List W64 :=
  [0x428A2F98D728AE22, 0x7137449123EF65CD, 0xB5C0FBCFEC4D3B2F, 0xE9B5DBA58189DBBC,
   0x3956C25BF348B538, 0x59F111F1B605D019, 0x923F82A4AF194F9B, 0xAB1C5ED5DA6D8118,
   0xD807AA98A3030242, 0x12835B0145706FBE, 0x243185BE4EE4B28C, 0x550C7DC3D5FFB4E2,
   0x72BE5D74F27B896F, 0x80DEB1FE3B1696B1, 0x9BDC06A725C71235, 0xC19BF174CF692694,
   0xE49B69C19EF14AD2, 0xEFBE4786384F25E3, 0x0FC19DC68B8CD5B5, 0x240CA1CC77AC9C65] ++
  [0x2DE92C6F592B0275, 0x4A7484AA6EA6E483, 0x5CB0A9DCBD41FBD4, 0x76F988DA831153B5,
   0x983E5152EE66DFAB, 0xA831C66D2DB43210, 0xB00327C898FB213F, 0xBF597FC7BEEF0EE4,
   0xC6E00BF33DA88FC2, 0xD5A79147930AA725, 0x06CA6351E003826F, 0x142929670A0E6E70,
   0x27B70A8546D22FFC, 0x2E1B21385C26C926, 0x4D2C6DFC5AC42AED, 0x53380D139D95B3DF,
   0x650A73548BAF63DE, 0x766A0ABB3C77B2A8, 0x81C2C92E47EDAEE6, 0x92722C851482353B] ++
  [0xA2BFE8A14CF10364, 0xA81A664BBC423001, 0xC24B8B70D0F89791, 0xC76C51A30654BE30,
   0xD192E819D6EF5218, 0xD69906245565A910, 0xF40E35855771202A, 0x106AA07032BBD1B8,
   0x19A4C116B8D2D0C8, 0x1E376C085141AB53, 0x2748774CDF8EEB99, 0x34B0BCB5E19B48A8,
   0x391C0CB3C5C95A63, 0x4ED8AA4AE3418ACB, 0x5B9CCA4F7763E373, 0x682E6FF3D6B2B8A3,
   0x748F82EE5DEFB2FC, 0x78A5636F43172F60, 0x84C87814A1F0AB72, 0x8CC702081A6439EC] ++
  [0x90BEFFFA23631E28, 0xA4506CEBDE82BDE9, 0xBEF9A3F7B2C67915, 0xC67178F2E372532B,
   0xCA273ECEEA26619C, 0xD186B8C721C0C207, 0xEADA7DD6CDE0EB1E, 0xF57D4F7FEE6ED178,
   0x06F067AA72176FBA, 0x0A637DC5A2C898A6, 0x113F9804BEF90DAE, 0x1B710B35131C471B,
   0x28DB77F523047D84, 0x32CAAB7B40C72493, 0x3C9EBE0A15C9BEBC, 0x431D67C49C100D4C,
   0x4CC5D4BECB3E42B6, 0x597F299CFC657E2A, 0x5FCB6FAB3AD6FAEC, 0x6C44198C4A475817]

/-- The starting values. -/
def shaInit : List W64 :=
  [0x6A09E667F3BCC908, 0xBB67AE8584CAA73B, 0x3C6EF372FE94F82B, 0xA54FF53A5F1D36F1,
   0x510E527FADE682D1, 0x9B05688C2B3E6C1F, 0x1F83D9ABFB41BD6B, 0x5BE0CD19137E2179]

/-- Sums of rotations, and of rotations and a shift. -/
def shaRot3 (x : W64) (a b c : Nat) : W64 := x.rotateRight a ^^^ x.rotateRight b ^^^ x.rotateRight c
def shaRot2 (x : W64) (a b c : Nat) : W64 := x.rotateRight a ^^^ x.rotateRight b ^^^ (x >>> c)

/-- The message schedule, newest word first. -/
def shaExpand : Nat → List W64 → List W64
  | 0, w => w
  | n + 1, w =>
    shaExpand n ((shaRot2 (w.getD 1 0) 19 61 6 + w.getD 6 0 + shaRot2 (w.getD 14 0) 1 8 7 + w.getD 15 0) :: w)

/-- One round over the eight working values. -/
def shaRound (v : List W64) (k w : W64) : List W64 :=
  let g := fun i => v.getD i 0
  let t1 := g 7 + shaRot3 (g 4) 14 18 41 + ((g 4 &&& g 5) ^^^ (~~~(g 4) &&& g 6)) + k + w
  let t2 := shaRot3 (g 0) 28 34 39 + ((g 0 &&& g 1) ^^^ (g 0 &&& g 2) ^^^ (g 1 &&& g 2))
  [t1 + t2, g 0, g 1, g 2, g 3 + t1, g 4, g 5, g 6]

/-- One block of 128 bytes. -/
def shaBlock (h : List W64) (b : Bytes) : List W64 :=
  let w := (List.range 16).map fun i => BitVec.ofNat 64 (beNat ((b.drop (8 * i)).take 8))
  let ws := (shaExpand 64 w.reverse).reverse
  let v := (shaKs.zip ws).foldl (fun v x => shaRound v x.1 x.2) h
  (h.zip v).map fun x => x.1 + x.2

/-- `n` blocks of a padded message. -/
def shaBlocks : Nat → List W64 → Bytes → List W64
  | 0, h, _ => h
  | n + 1, h, b => shaBlocks n (shaBlock h (b.take 128)) (b.drop 128)

/-- The SHA-512 digest of a message (R157, R558, R637): 64 bytes. -/
def sha512 (m : Bytes) : Bytes :=
  let z := (239 - (m.length % 128)) % 128
  let p := m ++ [0x80#8] ++ List.replicate z 0 ++ beBytes 16 (8 * m.length)
  (shaBlocks (p.length / 128) shaInit p).flatMap fun x => beBytes 8 x.toNat

end Sys2Proof.Machine
end

