-- ==== Sys2Proof/Machine/Boot.lean ====
section
/-! DEFINITION. Boot record copies, and where things lie in the management core's part of the flash (R634, R635). -/

namespace Sys2Proof.Machine

/-- A boot record (R635): SEQ and the committed slots (true for B). -/
structure BootRec where
  seq   : W32
  hub   : Bool
  plain : Bool
  deriving DecidableEq, Repr

/-- The 64 bytes of a boot record copy (R635). -/
def BootRec.bytes (r : BootRec) : Bytes :=
  let b := bytesOf [0x44524342#32, r.seq, BitVec.ofNat 32 (b2n r.hub + 2 * b2n r.plain)]
  b ++ leBytes 4 (crc32 b) ++ List.replicate 48 0

/-- The record of a boot record copy, where MAGIC and CHECK are correct (R635). -/
def bootRecOf (b : Bytes) : Option BootRec :=
  let w := wordsOf 4 b
  if b.length = 64 && wordAt w 0 = 0x44524342#32 && (wordAt w 3).toNat = crc32 (b.take 12) then some ⟨wordAt w 1, bit (wordAt w 2) 0, bit (wordAt w 2) 1⟩
  else none

/-- Flash offsets (R634): a boot record copy, the image slot of a part, the end of what the management core owns; the margin plan lies at 0x1020_0000,
the certificate chain and the journal at 0x1040_0000. -/
def bootAt (k : Nat) : Nat := 4096 * k
def slotAt (plain slot : Bool) : Nat := 0x200000 + 0x4000000 * (2 * b2n plain + b2n slot)
def slotSize : Nat := 0x4000000
def mcFlashEnd : Nat := 0x1000000000

end Sys2Proof.Machine
end

