-- ==== Sys2Proof/Machine/State.lean ====
section
/-! DEFINITION. The state of the TLS-4800: plain data, one home for each piece of state the spec names. -/

namespace Sys2Proof.Machine

/-- No command of the table stops the machine itself: the device reports its faults in its own state (R18, R201, R504), so
this type has no constructor. Safe. -/
inductive Fault where
  deriving DecidableEq

/-- The reasons for which the model gives no meaning. -/
inductive Refusal where
  /-- Raised by Machine/Dispatch.lean for a command that has no meaning yet; safe: the machine stops. -/
  | notModelled (mnemonic : String)
  deriving DecidableEq, Repr

/-- The states of a context (R168). -/
inductive CtxState where
  | idle
  | armed
  | running
  | paused
  | halted
  | done
  deriving DecidableEq, Repr

/-- A stream section of an armed image (R158, R159): PROLOGUE or STEP of a plain index. -/
structure Stream where
  step  : Bool
  index : Nat
  addr  : Nat
  bytes : Nat
  deriving DecidableEq, Repr

/-- A context record (R167 to R175, R475): its state, what its run record gave, the layout epoch with the one that waits, the tiers a snapshot
request names (R539, R542) and whether it was deferred (R543), the record a verification step compares with (R571), and the version of the plain
part it runs with the one that waits for its boundary (R581). -/
structure Ctx where
  st        : CtxState
  plain     : BitVec 4
  runTag    : BitVec 16
  seed      : W64
  step      : W32
  firstStep : W32
  stepCount : W32
  stepsDone : W32
  image     : Nat
  digest    : Bytes
  streams   : List Stream
  rng       : List Words
  pause     : Bool
  epoch     : BitVec 16
  pending   : Option (BitVec 16)
  busy      : Bool
  snap      : BitVec 3
  deferred  : Bool
  verify    : Option Bytes
  fwPlain   : BitVec 16
  fwNext    : Option (BitVec 16)
  deriving DecidableEq, Repr

/-- The states of a plain control core (R232); `collOut` for one that stopped because a wait of a COLL timed out (R465), `timedOut` for one that
stopped in a WAIT of its own. -/
inductive PccState where
  | idle
  | issuing
  | waiting
  | stepEnd
  | stopped
  | timedOut
  | collOut
  deriving DecidableEq, Repr

/-- What the command a PCC holds waits for, beside a WAIT (R180, R190, R284, R355, R417, R423). -/
inductive Hold where
  | none
  | fence
  | issueFull
  | tableSlot
  | tableWrites
  | walk
  deriving DecidableEq, Repr

/-- How far a command has come in one core (R93, R123, R221, R320). -/
inductive RunState where
  | queued
  | started
  | checked
  | done
  deriving DecidableEq, Repr

/-- A tile command in one core: the core's position, its progress, the counters of R596 it will report, and the values that
a later event of the command uses (norm partials; mispredicted block rows). -/
structure CoreRun where
  pos  : Nat
  st   : RunState
  ctr  : Words
  keep : Words
  deriving DecidableEq, Repr

/-- An issued tile command, DMA or COLL of a plain, in issue order (R180, R417): its place in that order, its words, the step it was issued
in, where the command after it lies in the stream (R202), its progress in each named core, and the generations it holds references to (R346). -/
structure Issued where
  id    : Nat
  words : Words
  step  : W32
  pos   : Nat
  pro   : Bool
  runs  : List CoreRun
  gens  : List (Nat × Nat)
  deriving DecidableEq, Repr

/-- The phases of a COLL (R465 to R472): in the queue, waiting for FREE, in phase 0, in phase 1, and with its release signals sent. -/
inductive CollPhase where
  | queued
  | free
  | arrive
  | second
  | last
  deriving DecidableEq, Repr

/-- A DMA or COLL in its engine (R416, R465). `moved` says that a DMA has read its data and issued its writes, or that the wait of a COLL's phase
has started. A COLL keeps the device of each rank, and for each rank how much of the phase it has sent: 1 its data, 2 its tag, 3 its signal; `out` says
that its wait has exceeded the wait limit (R465). -/
structure Job where
  id    : Nat
  words : Words
  step  : W32
  pos   : Nat
  pro   : Bool
  coll  : Bool
  moved : Bool
  phase : CollPhase
  ranks : List Nat
  sent  : List Nat
  out   : Bool
  deriving DecidableEq, Repr

/-- A plain control core and its engines (R178 to R183, R201, R232, R286, R417). `table` is the table a CMP_TABLE waits to install
(R355); `next` numbers the commands issued; `resume` is a RESUME that waits until the watershed lets the plain go on (R612). -/
structure Plain where
  pcc      : PccState
  prologue : Bool
  pos      : Nat
  fetched  : Option Words
  hold     : Hold
  waitObj  : BitVec 14
  target   : W32
  lastTag  : W32
  table    : Bytes
  next     : Nat
  issued   : List Issued
  jobs     : List Job
  resume   : Bool
  deriving DecidableEq, Repr

/-- What a packet in flight belongs to (R704): a command of a plain (its number, its TAG and the place after it in the stream; `signal`
for a SIGNAL), an abandoned command of a plain (R201), or the checkpoint engine. -/
inductive PkOwner where
  | cmd (plain id : Nat) (tag : W32) (pos : Nat) (pro signal : Bool)
  | gone (plain : Nat)
  | ckpt
  deriving DecidableEq, Repr

/-- A packet its sender holds until it is acknowledged or refused (R443, R704): the link it was sent on with the flit that
carries its last unit (none while it waits for a link or for credits; link 64 once the link has delivered it), and how often it failed its
check word. -/
structure Outst where
  pk    : Packet
  on    : Option (Nat × BitVec 12)
  fails : Nat
  owner : PkOwner
  deriving DecidableEq, Repr

/-- Units of a packet in the payload of a flit (R439): the packet, the first of the units and how many. -/
structure Piece where
  pk    : Packet
  first : Nat
  count : Nat
  deriving DecidableEq, Repr

/-- A flit (R437): its control word and its payload; units after the last piece are null units (R439). -/
structure Flit where
  ctl    : W64
  pieces : List Piece
  deriving DecidableEq, Repr

/-- A link beside its registers (R438, R445 to R449): the next FSEQ sent, the last FSEQ acknowledged by the partner, the last FSEQ
accepted, whether a NAK is due, the replays in a row, and for each buffer (VC · 2 + class) the CRED last received, the units sent,
the units freed and the units freed as last reported, with the buffer reported last; the units of the flit being filled, the replay buffer, the flits
sent since training, oldest first; the packet bytes sent and received on VC1 to VC3 (R600), and whether it has sent a VC0 packet (R451). -/
structure Link where
  txNext  : BitVec 12
  acked   : BitVec 12
  rxLast  : BitVec 12
  nak     : Bool
  replays : Nat
  cred    : List (BitVec 16)
  sent    : List (BitVec 16)
  freed   : List (BitVec 16)
  told    : List (BitVec 16)
  turn    : Nat
  txBytes : Nat
  rxBytes : Nat
  vc0     : Bool
  cur     : List Piece
  kept    : List Flit
  out     : List Flit
  deriving DecidableEq, Repr

/-- The states of a ring pair (R534). -/
inductive PairState where
  | disabled
  | active
  | stopped
  | detached
  deriving DecidableEq, Repr

/-- A ring pair (R494 to R512): the doorbell counts last read, whether an entry found invalid is being read again, the entry being executed
and whether the pair was enabled anew since it started, the status of a COPY whose data has been placed, the queued completions of the overflow
queue, and whether an interrupt is held back by coalescing. -/
structure Pair where
  st     : PairState
  code   : BitVec 16
  en     : Bool
  sqHead : W32
  cqTail : W32
  sqTail : W32
  cqHead : W32
  stale  : Bool
  cur    : Option Words
  old    : Bool
  copied : Option Nat
  ovf    : List Words
  lost   : BitVec 16
  irq    : Bool
  irqAt  : Option W64
  deriving DecidableEq, Repr

/-- What leaves the device on the host link (R508, R511, R514, R517, R519, R630): posted writes, interrupts, answers to reads and to
configuration requests. -/
inductive HostOut where
  | write (addr : Nat) (data : Bytes) (poison : Bool)
  | read (addr : Nat) (len : Nat)
  | msix (vector : Nat)
  | regData (requester : Nat) (off : Nat) (value : W32)
  | winData (off : Nat) (data : Bytes) (poison : List Nat)
  | unsupported (off : Nat)
  | backInvalidate (off : Nat) (len : Nat)
  | retry
  | configData (off : Nat) (value : W32)
  | configDone
  deriving DecidableEq, Repr

/-- Whom a write belongs to: a command of a plain, the ring command of a pair, an answer that waits for it (with the context whose region
admitted it), the host through the window, or
nobody who waits; `trace` for the trace records of a context (R604). -/
inductive Writer where
  | cmd (plain id : Nat)
  | trace (m : Nat)
  | pair (r : Nat)
  | ack (n : Nat) (m : Option Nat)
  | host
  | other
  deriving DecidableEq, Repr

/-- A write that waits for copy-on-write (R423): the page, whom it belongs to, the masked bytes (address, value, mask),
the lines it writes as poisoned (R403), and whether it was counted as waiting for a pool page (R425). -/
structure CowWrite where
  page    : Nat
  owner   : Writer
  bytes   : List (Nat × Byte × Byte)
  bad     : List Nat
  counted : Bool
  deriving DecidableEq, Repr

/-- What leaves the device on its Ethernet ports (R524 to R531). -/
inductive EthOut where
  | write (q : Nat) (psn : Nat) (rkey : W32) (va : Nat) (data : Bytes)
  | read (q : Nat) (psn : Nat) (rkey : W32) (va len : Nat)
  | ack (q : Nat)
  | accessNak (q : Nat)
  | operationalNak (q : Nat)
  | sequenceNak (q : Nat)
  | readData (q : Nat) (data : Bytes)
  | cnp (q : Nat)
  | arpReply (port : Nat) (ip : BitVec 32)
  | neighbour (port : Nat) (gid : BitVec 128)
  deriving DecidableEq, Repr

/-- An answer that goes out once the write it speaks of is applied (R442, R528), and the refusal that goes out if it cannot be (R397). -/
inductive Ack where
  | link (pk nak : Packet)
  | eth (q : Nat) (o nak : EthOut)
  deriving DecidableEq, Repr

/-- A requester transfer of a queue pair (R525, R530, R556): for a ring pair, or (none) for the checkpoint engine, which holds in
`got` what it reads, or what it writes; `psn` is the packet sequence number of its first packet. -/
structure Xfer where
  pair   : Option Nat
  write  : Bool
  rkey   : W32
  va     : Nat
  dev    : Nat
  bytes  : Nat
  done   : Nat
  failed : Bool
  got    : Bytes
  psn    : Nat
  deriving DecidableEq, Repr

/-- A queue pair beside its table entry (R525, R529): its transfers, oldest first, the retries of the oldest, the rate limit in bits per second,
and when it last sent a CNP. -/
structure Qp where
  xfers   : List Xfer
  retries : Nat
  rate    : Nat
  cnpAt   : Option W64
  deriving DecidableEq, Repr

/-- What leaves for the flash controller (R556, R557). -/
inductive FlashOut where
  | write (addr : Nat) (data : Bytes)
  | read (addr len : Nat)
  deriving DecidableEq, Repr

/-- The phases of the checkpoint engine: idle, in the stop of a snapshot (R545 to R547), draining (R551 to R554), writing manifests, prepared, writing roots (R563), or in a restore, looking
for the checkpoint or loading it (R569). -/
inductive CkpPhase where
  | idle
  | stop
  | drain
  | manifest
  | prepared
  | roots
  | find
  | load
  deriving DecidableEq, Repr

/-- An access of a tier by the checkpoint engine that has not been answered: the tier, its first byte in the tier, its length; a partner's read by
its REQ_ID; the flash byte it reaches and the bytes that a write brings there. Tier 3 is an access of the flash that nothing waits for any longer. -/
structure TierReq where
  tier  : Nat
  write : Bool
  off   : Nat
  len   : Nat
  req   : BitVec 16
  addr  : Nat
  data  : Bytes
  deriving DecidableEq, Repr

/-- The checkpoint engine (R539 to R575): the context and the tiers, the words 0 to 63 of the manifest header, the live ranges, how much of the
area is read, the live pages not read yet, the data stream as read or loaded so far, the verification record, the slot and the SEQ of the root
for each tier, what was read from the tiers (by tier · 2^56 + offset), the accesses not answered, the ring pair and the entry of a CKP_COMMIT
or CKP_RESTORE, and the next chunk and the root of a restore. -/
structure Ckp where
  phase  : CkpPhase
  ctx    : Nat
  tiers  : List Nat
  hdr    : Words
  ranges : List (Nat × Nat)
  area   : Nat
  left   : List Nat
  data   : Store Byte
  verify : Option Bytes
  slots  : List (Nat × Nat × W32)
  cache  : Store (Option Byte)
  reqs   : List TierReq
  cmd    : Option (Nat × Words)
  chunk  : Nat
  root   : Option (Nat × Nat)
  deriving DecidableEq, Repr

/-- The states of the watershed (R626). -/
inductive DbgState where
  | running
  | stopping
  | scanning
  | stopped
  deriving DecidableEq, Repr

/-- Copy-on-write beside its registers (R421 to R426): the pool pages in use, each with the live page it holds, and the
writes that wait. -/
structure Cow where
  pool    : List (Nat × Nat)
  waiting : List CowWrite
  deriving DecidableEq, Repr

/-- A line of a slice of the MSC (R406): its way, its number (address / 2,048), and the masks of its valid and of its dirty sectors. -/
structure MscLine where
  way   : Nat
  line  : Nat
  valid : Nat
  dirty : Nat
  deriving DecidableEq, Repr

/-- The memory-side cache (R406 to R408): the lines of each set, by slice · 512 + set, the most recently used first; the requests looked up and
the hits of each slice (R435); the bytes read from and written to memory by tier, 0 HBM and 1 DDR5 (R600). -/
structure Msc where
  sets  : Store (List MscLine)
  looks : Store W32
  hits  : Store W32
  rd    : Store Nat
  wr    : Store Nat
  deriving DecidableEq, Repr

/-- A slot of the table store that is not FREE (R346): CURRENT or RETIRING; its references are those that issued commands hold. -/
structure Slot where
  handle  : Nat
  gen     : Nat
  c12     : Bool
  table   : Bytes
  current : Bool
  deriving DecidableEq, Repr

/-- A host access through the window (R514, R518). -/
inductive WinAcc where
  | read (off len : Nat)
  | write (off : Nat) (data : Bytes)
  deriving DecidableEq, Repr

/-- What answers a read of the window (R514, R518): device memory from an address on, zeros while the window is not enabled, or free values for a tier that has
failed. -/
inductive WinSrc where
  | mem (a : Nat)
  | zero
  | lost
  deriving DecidableEq, Repr

/-- The window beside its registers (R514, R517, R519): reads (offset, source, length) that wait for earlier host writes, the base of a move in progress, the accesses
that wait for the move, and the bias pages whose host copies are being back-invalidated. -/
structure Win where
  reads : List (Nat × WinSrc × Nat)
  moving : Option Nat
  wait  : List WinAcc
  pages : List Nat
  deriving DecidableEq, Repr

/-- A firmware image in a slot of the flash (R636, R637): what its header says, the digest of its body, and whether everything of R637 that
never changes holds: MAGIC, PART, reserved bytes, key digest, signature and body digest. -/
structure FwImage where
  ver    : BitVec 16
  svn    : Nat
  key    : Nat
  revoke : BitVec 4
  digest : Bytes
  signed : Bool
  deriving DecidableEq, Repr

/-- Journalled long operations (R643, R664): an erase of the session keys or of every key, and the commit of a slot of a part, with how many of its
steps 2 to 4 are complete. -/
inductive Journal where
  | erase (all : Bool)
  | commit (plain slot : Bool) (done : Nat)
  deriving DecidableEq, Repr

/-- An attestation key (R645): its number, and the digests of the hub image and of the plain image that its certificate carries. -/
structure Ak where
  key   : Nat
  hub   : Bytes
  plain : Bytes
  deriving DecidableEq, Repr

/-- The security block (R633 to R656): fuses, keys, the debug unlock, the slots of the flash (hub A, hub B, plain A, plain B), the bytes of the boot record copies,
the slots that run, the staged slot of each part, the part staged last, and the journal. -/
structure Sec where
  provisioned : Bool
  eraseAll    : Bool
  svnHub      : Nat
  svnPlain    : Nat
  revoke      : BitVec 4
  serial      : W64
  idk         : Bool
  ak          : Option Ak
  unlocked    : Bool
  fails       : Nat
  nonce       : Option Bytes
  slots       : List (Option FwImage)
  boot        : List Bytes
  hubRun      : Option Bool
  plainRun    : Option Bool
  stagedHub   : Option Bool
  stagedPlain : Option Bool
  lastPlain   : Bool
  journal     : Option Journal
  deriving DecidableEq, Repr

/-- The long operations of the management core (R660, R663): KEY_ERASE, FW_COMMIT of a part, FULL_SCRUB. -/
inductive LongOp where
  | keyErase (all : Bool)
  | fwCommit (plain : Bool)
  | fullScrub
  deriving DecidableEq, Repr

/-- The states of a PLDM firmware update (R641, R658). -/
inductive UpdState where
  | learn
  | ready
  | download
  | verify
  | apply
  deriving DecidableEq, Repr

/-- A PLDM firmware update in progress: the component being staged and its bytes. -/
structure Update where
  st    : UpdState
  table : List Component
  comp  : Component
  data  : Store Byte
  deriving DecidableEq, Repr

/-- Completion codes of PLDM and MCTP control answers. -/
inductive MsgCode where
  | success
  | notReady
  | unsupported
  | invalidData
  | wrongState
  | failed
  deriving DecidableEq, Repr

/-- The error answers of SPDM (R631, R647, R653, R663). -/
inductive SpdmError where
  | busy
  | notReady
  | unexpected
  | unspecified
  | sessionLimit
  | invalidSession
  | decryptError
  | invalidRequest
  | largeResponse
  deriving DecidableEq, Repr

/-- The capabilities and the algorithms of the SPDM responder (R647). -/
inductive SpdmCap where
  | cert
  | chal
  | measSig
  | measFresh
  | encrypt
  | mac
  | keyEx
  | hbeat
  | keyUpd
  | chunk
  deriving DecidableEq, Repr

inductive SpdmAlg where
  | ecdsaP521
  | sha512
  | dheSecp521r1
  | aes256Gcm
  | keySchedule
  deriving DecidableEq, Repr

/-- The answers of the SPDM responder (R646 to R649); where they carry keys, certificates or signatures, those are free values. -/
inductive SpdmRsp where
  | version (vs : List Nat)
  | capabilities (ctExponent : Nat) (caps : List SpdmCap)
  | algorithms (algs : List SpdmAlg)
  | digests (slot0 : Option Bytes)
  | certificate (data : Bytes)
  | challengeAuth (nonce signature : Bytes)
  | measurements (blocks : List (Nat × Bytes)) (nonce : Bytes) (signature : Option Bytes)
  | keyExchangeRsp (session : W32) (share signature : Bytes)
  | finishRsp
  | heartbeatAck
  | keyUpdateAck
  | endSessionAck
  | chunk (number : Nat) (last : Bool) (r : SpdmRsp)
  | error (e : SpdmError)
  deriving DecidableEq, Repr

/-- What the management core answers on an interface (R657 to R665): a command of the mailbox or of type 0x7E, MCTP control, PLDM, SPDM. -/
inductive MgtOut where
  | vendor (i : MgtIface) (token : BitVec 8) (started : Bool) (result : Nat) (data : Words)
  | mctp (i : MgtIface) (code : MsgCode) (data : Words)
  | pldm (i : MgtIface) (code : MsgCode) (data : Words)
  | spdm (i : MgtIface) (r : SpdmRsp)
  deriving DecidableEq, Repr

/-- How far an SPDM connection has come on an interface, and a large answer that waits to be read in chunks (R647). -/
structure Spdm where
  stage : Nat
  large : Option (SpdmRsp × Nat)
  deriving DecidableEq, Repr

/-- The management core (R657 to R665): the long operation with the interface and token it answers, whether it answers there, the open sessions with
whether their handshake has ended, the PLDM terminus ID, the update, the connections by interface number, and the SMBus address bits. -/
structure Mgt where
  long     : Option (LongOp × MgtIface × BitVec 8 × Bool)
  sessions : List (W32 × Bool)
  tid      : BitVec 8
  update   : Option Update
  spdm     : Store Spdm
  smbus    : BitVec 2
  deriving DecidableEq, Repr

/-- The level of a reset that is in progress (R693). -/
inductive RstLevel where
  | none
  | warm
  | cold
  deriving DecidableEq, Repr

/-- The module (R673 to R682, R686, R692): whether the hub has power, whether it lost it to an input below 46.0 V, the PWR_EN pin, whether bring-up
waits for it at the end of P1, whether the thermal trip holds (THERM_N low), a cold reset that waits for the sensors, and the reset in progress. -/
structure Board where
  power   : Bool
  under   : Bool
  pwrEn   : Bool
  waiting : Bool
  trip    : Bool
  cold    : Option Nat
  level   : RstLevel
  deriving DecidableEq, Repr

/-- The machine. Stores hold only what differs from the reset value (Machine/Store.lean). -/
structure State where
  /-- The commands that wait, first in first out. -/
  pending    : List Instr
  /-- The model's own counter of free values drawn (log entry 1). -/
  free       : Nat
  /-- The timebase in ns (R691). -/
  time       : W64
  /-- Registers by BAR0 offset (R491); what is not listed is at its reset value. -/
  regs       : Store W32
  /-- Registers of which each requester holds its own copy (R493, R599, R609), by requester · 2^21 + offset. -/
  views      : Store W32
  /-- Held low halves of register pairs, by offset (R12). -/
  held       : Store (Option W32)
  /-- High halves captured by a read of the low half, by requester · 2^21 + offset (R13). -/
  capt       : Store (Option W32)
  /-- Device memory, byte by byte (R378). -/
  mem        : Store Byte
  /-- Poisoned lines of 64 bytes, by address / 64 (R401). -/
  poison     : Store Bool
  /-- The memory-side cache (R406 to R409). -/
  msc        : Msc
  /-- Whether the DDR5 tier has lost its contents to a failed channel (R398), with the number of its free values (log entry 83). -/
  ddrLost    : Option Nat
  /-- Copy-on-write (R421 to R426). -/
  cow        : Cow
  /-- Field memory, by core · 2^23 + offset (R95). -/
  field      : Store Byte
  /-- Accumulator elements, by (core · 32 + tile) · 4096 + row · 64 + column (R100). -/
  acc        : Store W32
  /-- Basin elements, by (core · 256 + tile) · 4096 + row · 64 + column (R100). -/
  basin      : Store W32
  /-- OPEN bits of the accumulator tiles of a core (R149). -/
  accOpen    : Store Nat
  /-- OPEN bits of the Basin tiles of a core (R150). -/
  basinOpen  : Store Nat
  /-- HOLD masks of accumulator tiles, by core · 32 + tile (R296). -/
  accHold    : Store Nat
  /-- HOLD masks of Basin tiles, by core · 256 + tile (R296). -/
  basinHold  : Store Nat
  /-- The slots of the table store that are not FREE (R346). -/
  slots      : List Slot
  /-- The generation of each handle (R346). -/
  cmpGen     : Store Nat
  /-- Sync objects (R184). -/
  objs       : Store W32
  /-- Context records (R168). -/
  ctxs       : Store Ctx
  /-- Plain control cores (R178). -/
  plains     : Store Plain
  /-- Live counter sets, by core · 4 + path, the P set of plain p at p · 4 + 3 (R591, R592). -/
  cntLive    : Store Words
  /-- Shadow counter sets (R591, R592). -/
  cntShadow  : Store Words
  /-- Captured records, by requester (R599). -/
  cntRec     : Store Words
  /-- Captured log entries, by requester (R609). -/
  logRec     : Store Words
  /-- Global counters that are not counted elsewhere: stall and active cycles, tile commands, WAIT cycles (R600). -/
  glb        : List Nat
  /-- The event log, newest entry first, eight words each (R605). -/
  log        : List Words
  /-- The SEQ of the next log entry (R605, R627). -/
  logHead    : W32
  /-- Packets held until they are settled, oldest first (R704). -/
  outst      : List Outst
  /-- Packets without answer that wait for a link, each with the link it arrived on if it is forwarded: acknowledgements, refusals, forwarded
  packets and STOPs (R445, R457). -/
  txWait     : List (Packet × Option Nat)
  /-- The links (R437 to R449). -/
  links      : Store Link
  /-- The route table: the word of LNK_ROUTE_DATA for each device ID (R456). -/
  routes     : Store W32
  /-- The next REQ_ID (R440). -/
  reqNext    : BitVec 16
  /-- Packets handed to the links, oldest first. -/
  linkTx     : List (Nat × Packet)
  /-- The configuration space of the PCIe function, by offset (R487 to R490): BARs, power state, MSI-X, error reporting. -/
  pci        : Store W32
  /-- Ring pairs (R494). -/
  pairs      : Store Pair
  /-- What the device has sent to the host, oldest first. -/
  hostTx     : List HostOut
  /-- Answers that wait for their writes, by the number the write carries (R442, R528), and the next such number. -/
  acks       : List (Nat × Ack)
  ackNext    : Nat
  /-- GIDs by port · 16 + index, queue pairs and memory regions: the words of their table entries (R537). -/
  gids       : Store Words
  qps        : Store Words
  mrs        : Store Words
  /-- Queue pairs beside their entries. -/
  qpx        : Store Qp
  /-- Priorities of an Ethernet port that a peer has paused (R524). -/
  pfc        : Store Nat
  /-- Frames of paused priorities (R524), oldest first: the port and the priority, what is sent, and its number of frames. -/
  ethWait    : List (Nat × Nat × EthOut × Nat)
  /-- Frames handed to the Ethernet ports, oldest first. -/
  ethTx      : List EthOut
  /-- The checkpoint engine. -/
  ckp        : Ckp
  /-- Accesses handed to the flash controller, oldest first. -/
  flashTx    : List FlashOut
  /-- The module's soldered flash (R2, R556, R634), by byte, but for what the security block holds of it; what nothing has written is not listed. -/
  flash      : Store (Option Byte)
  /-- The corrected-error counts at the last hourly check (R580): stacks from 0, channels from 16, cores from 32. -/
  eccHour    : Store W32
  /-- State of the watershed; its record is in DBG_STATUS (R611, R626). -/
  dbg        : DbgState
  /-- Contexts whose pairs received CTX_FROZEN (R617, R618). -/
  frozen     : List Nat
  /-- The window (R514 to R519). -/
  win        : Win
  /-- The margin plan in flash: the word of AGE_PLAIN of each plain, and that of AGE_MARGIN_STATUS at 16 (R578). -/
  plan       : Store W32
  /-- The security block. -/
  sec        : Sec
  /-- The management core. -/
  mgt        : Mgt
  /-- What the management core has answered, oldest first. -/
  mgtTx      : List MgtOut
  /-- The module. -/
  board      : Board
  deriving DecidableEq, Repr

/-- A context at reset (R168, R226 to R230). -/
def Ctx.reset : Ctx :=
  ⟨.idle, 0, 0, 0, 0, 0, 0, 0, 0, [], [], [], false, 0, none, false, 0, false, none, 0, none⟩

/-- A plain at reset (R232 to R235). -/
def Plain.reset : Plain := ⟨.idle, false, 0, none, .none, 0, 0, 0, [], 0, [], [], false⟩

/-- A ring pair at reset (R534). -/
def Pair.reset : Pair := ⟨.disabled, 0, false, 0, 0, 0, 0, false, none, false, none, [], 0, false, none⟩

/-- A queue pair at reset: no transfer, the port's rate (R529). -/
def Qp.reset : Qp := ⟨[], 0, 800000000000, none⟩

/-- The checkpoint engine at rest. -/
def Ckp.idle : Ckp := ⟨.idle, 0, [], [], [], 0, [], [], none, [], [], [], none, 0, none⟩

/-- A link at training: nothing sent, nothing received. -/
def Link.reset : Link :=
  ⟨0, 0xFFF#12, 0xFFF#12, false, 0, List.replicate 8 0, List.replicate 8 0, List.replicate 8 0, List.replicate 8 0, 0, 0, 0, false, [], [], []⟩

/-- A link trained anew (R449); its counters run on (R484). -/
def Link.train (l : Link) : Link := { Link.reset with txBytes := l.txBytes, rxBytes := l.rxBytes, vc0 := l.vc0 }

/-- The factory image of a part in slot A (log entry 40). -/
def FwImage.factory : FwImage := ⟨0, 0, 0, 0, List.replicate 64 0, true⟩

/-- The security block as the device leaves the factory (log entry 40). -/
def Sec.factory : Sec where
  provisioned := true
  eraseAll := false
  svnHub := 0
  svnPlain := 0
  revoke := 0
  serial := 0
  idk := true
  ak := none
  unlocked := false
  fails := 0
  nonce := none
  slots := [some FwImage.factory, none, some FwImage.factory, none]
  boot := [BootRec.bytes ⟨0, false, false⟩, List.replicate 64 0xFF]
  hubRun := none
  plainRun := none
  stagedHub := none
  stagedPlain := none
  lastPlain := false
  journal := none

/-- The machine right after a cold reset. -/
def State.reset : State where
  pending := []
  free := 0
  time := 0
  regs := []
  views := []
  held := []
  capt := []
  mem := []
  poison := []
  msc := ⟨[], [], [], [], []⟩
  ddrLost := none
  cow := ⟨[], []⟩
  field := []
  acc := []
  basin := []
  accOpen := []
  basinOpen := []
  accHold := []
  basinHold := []
  slots := []
  cmpGen := []
  objs := []
  ctxs := []
  plains := []
  cntLive := []
  cntShadow := []
  cntRec := []
  logRec := []
  glb := List.replicate 16 0
  log := []
  logHead := 0
  outst := []
  txWait := []
  links := []
  routes := []
  reqNext := 0
  linkTx := []
  pci := []
  pairs := []
  hostTx := []
  acks := []
  ackNext := 0
  gids := []
  qps := []
  mrs := []
  qpx := []
  pfc := []
  ethWait := []
  ethTx := []
  ckp := Ckp.idle
  flashTx := []
  flash := []
  eccHour := []
  dbg := .running
  frozen := []
  win := ⟨[], none, [], []⟩
  plan := []
  sec := Sec.factory
  mgt := ⟨none, [], 0, none, [], 0⟩
  mgtTx := []
  board := ⟨true, false, false, false, false, none, .cold⟩

end Sys2Proof.Machine
end

