-- ==== Sys2Proof/Machine/Msc.lean ====
section
/-! DEFINITION. The memory-side cache: home slices, lookups, allocation, eviction and write-back (R28, R380, R381, R406 to R409). It holds which
lines and sectors are cached and dirty; their bytes are those of device memory, which a cached copy never differs from for any reader (R29, R91). -/

namespace Sys2Proof.Machine

/-- The base of the DDR5 tier (R378). -/
def ddrBase : Nat := 0x20000000000

/-- The controller of an address, HBM stack or DDR5 channel (R380, R381). -/
def controllerOf (a : Nat) : Nat :=
  if a < ddrBase then 6 * (a / 2 ^ 39 % 2) + a % 2 ^ 39 / 2048 % 6 else (a - ddrBase) / 2048 % 8

/-- The home slice of an address (R380, R381). -/
def homeOf (a : Nat) : Nat := if a < ddrBase then controllerOf a else (a - ddrBase) / 2048 % 12

/-- The lines of a slice that a set holds: slice · 512 + set. Which set a line falls in is stated nowhere (log entry 129). -/
def Msc.setOf (line : Nat) : Nat := homeOf (line * 2048) * 512 + Config.mscSet line % 512

/-- The lines of a set, the most recently used first. -/
def Msc.linesAt (x : Msc) (line : Nat) : List MscLine := storeGet (fun _ => []) x.sets (Msc.setOf line)

/-- The cached copy of a line (R28). -/
def Msc.find (x : Msc) (line : Nat) : Option MscLine := (x.linesAt line).find? fun e => e.line = line

/-- How many sectors a mask names. -/
def sectorCount (k : Nat) : Nat := ((List.range 32).filter fun i => k.testBit i).length

/-- Where a counter by tier counts a line: 0 HBM, 1 DDR5. -/
def tierOf (line : Nat) : Nat := b2n (ddrBase ≤ line * 2048)

/-- Sectors read from memory, or written to it, counted (R600). -/
def Msc.reads (x : Msc) (line n : Nat) : Msc :=
  { x with rd := storePut (fun _ => 0) x.rd (tierOf line) (storeGet (fun _ => 0) x.rd (tierOf line) + 64 * n) }
def Msc.writes (x : Msc) (line n : Nat) : Msc :=
  { x with wr := storePut (fun _ => 0) x.wr (tierOf line) (storeGet (fun _ => 0) x.wr (tierOf line) + 64 * n) }

/-- The lines of a set replaced. -/
def Msc.setLines (x : Msc) (line : Nat) (l : List MscLine) : Msc :=
  { x with sets := storePut (fun _ => []) x.sets (Msc.setOf line) l }

/-- The way a new line takes among those of a mask: the lowest that holds no line, else that of the least recently used line (R408). -/
def Msc.victim (l : List MscLine) (mask : Nat) : Nat :=
  match (List.range 16).find? fun w => mask.testBit w && ! l.any fun e => e.way = w with
  | some w => w
  | none => ((l.filter fun e => mask.testBit e.way).getLast?.map fun e => e.way).getD 0

/-- One request at its home slice (R406 to R408): `pol` is its policy (0 NORMAL, 1 STREAM, 2 BYPASS), `mask` its ways, `sec` the sectors of the
line it covers. -/
def Msc.request (x : Msc) (pol mask : Nat) (write : Bool) (line sec : Nat) : Msc :=
  let n := homeOf (line * 2048)
  let x := { x with looks := storePut (fun _ => 0) x.looks n (satAdd (storeGet (fun _ => 0) x.looks n) 1) }
  let l := x.linesAt line
  match l.find? fun e => e.line = line with
  | some e =>
    let x := { x with hits := storePut (fun _ => 0) x.hits n (satAdd (storeGet (fun _ => 0) x.hits n) 1) }
    let miss := if write then 0 else sectorCount (sec &&& (e.valid ^^^ (2 ^ 32 - 1)))
    (x.setLines line ({ e with valid := e.valid ||| sec, dirty := if write then e.dirty ||| sec else e.dirty } ::
      l.filter fun e => e.line ≠ line)).reads line miss
  | none =>
    let x := if write then x else x.reads line (sectorCount sec)
    if pol = 2 || mask = 0 then (if write then x.writes line (sectorCount sec) else x)
    else
      let w := Msc.victim l mask
      let e : MscLine := ⟨w, line, sec, if write then sec else 0⟩
      let x := (l.filter fun e => e.way = w).foldl (fun x e => x.writes e.line (sectorCount e.dirty)) x
      let l := l.filter fun e => e.way ≠ w
      x.setLines line (if pol = 0 then e :: l else l ++ [e])

/-- The requests that move runs of bytes, (line, sectors): one for each stretch of bytes within a line (R382, log entry 129). -/
def requestsOf (a n : Nat) : List Nat :=
  if n = 0 then [] else a :: (List.range ((a + n - 1) / 2048 - a / 2048)).map fun k => (a / 2048 + k + 1) * 2048

/-- The sectors that the `n` bytes from `a` on lie in, within the line of `a`. -/
def sectorsOf (a n : Nat) : Nat :=
  let i := a % 2048 / 64
  let j := min 31 ((a % 2048 + n - 1) / 64)
  2 ^ (j + 1) - 2 ^ i

/-- Stretches of one line that follow one another are one request. -/
def joinRequests (l : List (Nat × Nat)) : List (Nat × Nat) :=
  l.foldr (fun x r => match r with
    | y :: t => if x.1 = y.1 then (x.1, x.2 ||| y.2) :: t else x :: r
    | [] => [x]) []

/-- The requests of a list of runs of bytes. -/
def lineRequests (runs : List (Nat × Nat)) : List (Nat × Nat) :=
  joinRequests (runs.flatMap fun r => (requestsOf r.1 r.2).map fun x => (x / 2048, sectorsOf x (min (r.1 + r.2) (x / 2048 * 2048 + 2048) - x)))

/-- Lines that hold a dirty sector, of those a test keeps (R398, R435). -/
def Msc.dirtyLines (x : Msc) (p : MscLine → Bool) : Nat :=
  (x.sets.map fun s => (s.2.filter fun e => e.dirty ≠ 0 && p e).length).sum

/-- Whether the MSC holds the dirty copy of the 64-byte line `l` (R405). -/
def Msc.dirtyAt (x : Msc) (l : Nat) : Bool :=
  match x.find (l / 32) with
  | some e => e.dirty.testBit (l % 32)
  | none => false

/-- A change of every cached line; `none` invalidates it. -/
def Msc.mapLines (x : Msc) (f : MscLine → Option MscLine) : Msc :=
  { x with sets := (x.sets.map fun s => (s.1, s.2.filterMap f)).filter fun s => s.2 ≠ [] }

/-- Every dirty line written back (R409); the lines stay cached (log entry 129). -/
def Msc.writeBack (x : Msc) : Msc :=
  (x.sets.flatMap fun s => s.2).foldl (fun x e => x.writes e.line (sectorCount e.dirty)) (x.mapLines fun e => some { e with dirty := 0 })

end Sys2Proof.Machine
end

