-- ==== Sys2Proof/Machine/Packet.lean ====
section
/-! DEFINITION. The fields of an Adtever packet (R439 to R443). -/

namespace Sys2Proof

open Sys2Proof.Machine

/-- The fields of a packet header (R440). -/
def Packet.w (k : Packet) (i : Nat) : W32 := wordAt k.hdr i
def Packet.ptype (k : Packet) : Nat := bits (k.w 0) 31 28
def Packet.vc (k : Packet) : Nat := bits (k.w 0) 27 26
def Packet.cls (k : Packet) : Nat := bits (k.w 0) 25 25
def Packet.dst (k : Packet) : Nat := bits (k.w 0) 23 12
def Packet.src (k : Packet) : Nat := bits (k.w 0) 11 0
def Packet.runTag (k : Packet) : Nat := bits (k.w 1) 31 16
def Packet.epoch (k : Packet) : Nat := bits (k.w 1) 15 0
def Packet.reqId (k : Packet) : Nat := bits (k.w 3) 31 16
def Packet.reason (k : Packet) : Nat := bits (k.w 3) 15 12
def Packet.addr (k : Packet) : Nat := dword k.hdr 4
def Packet.obj (k : Packet) : Nat := bits (k.w 4) 13 0
def Packet.add (k : Packet) : Nat := bits (k.w 5) 15 0

/-- The check word over header bytes 0 to 27 and the data (R440, R443). -/
def Packet.crc (k : Packet) : W32 := BitVec.ofNat 32 (crc32 (bytesOf (k.hdr.take 7) ++ k.data))

/-- Units of 32 bytes of a packet (R439). -/
def Packet.units (k : Packet) : Nat := 1 + ceilDiv k.data.length 32

/-- A packet with its class set and its check word made. -/
def Packet.sealed (k : Packet) (cls : Nat) : Packet :=
  let w0 := BitVec.ofNat 32 ((k.w 0).toNat - k.cls * 2 ^ 25 + cls % 2 * 2 ^ 25)
  let k' : Packet := { k with hdr := w0 :: (k.hdr.drop 1).take 6 }
  { k' with hdr := k'.hdr ++ [k'.crc] }

/-- A packet passed on with a class (R455, R457): its check word changes by what the class changes in it, so that an error it arrived with stays
one (log entry 130). -/
def Packet.reclass (k : Packet) (cls : Nat) : Packet :=
  if k.cls = cls % 2 then k
  else
    let w0 := BitVec.ofNat 32 ((k.w 0).toNat - k.cls * 2 ^ 25 + cls % 2 * 2 ^ 25)
    let k' : Packet := { k with hdr := w0 :: k.hdr.drop 1 }
    { k' with hdr := k'.hdr.take 7 ++ [k.w 7 ^^^ k.crc ^^^ k'.crc] }

/-- Whether a packet has a type and a virtual channel that R441 lists together. -/
def Packet.listed (k : Packet) : Bool :=
  match k.ptype with
  | 0 => true
  | 1 => k.vc ≠ 0
  | 2 => k.vc = 0
  | 3 => k.vc = 0
  | 4 => k.vc = 0
  | 5 => k.vc = 0
  | 6 => k.vc ≠ 0
  | 7 => k.vc = 0
  | 8 => k.vc = 0
  | 9 => k.vc = 3
  | 10 => k.vc = 0
  | _ => false

/-- The REQ_IDs of an acknowledgement (R441). -/
def Packet.ackIds (k : Packet) : List Nat :=
  (List.range (min 8 (bits (k.w 2) 3 0))).map fun i => if i % 2 = 0 then bits (k.w (3 + i / 2)) 15 0 else bits (k.w (3 + i / 2)) 31 16

end Sys2Proof
end

