-- ==== Sys2Proof/Machine/Pci.lean ====
section
/-! DEFINITION. The configuration space of the PCIe function (R487 to R491, R523). The spec names what it holds; its layout and its reset values are
those of PCI Express and CXL (PRESUMED, log entry 134). -/

namespace Sys2Proof.Machine

/-- A word of configuration space: its offset, the bits software writes, the bits a 1 clears, and its reset value. -/
structure PciRow where
  off   : Nat
  rw    : Nat
  w1c   : Nat
  reset : Nat
  deriving DecidableEq, Repr

/-- The header with the BARs of R488, power management (R487: D0 and D3hot), PCI Express, MSI-X with 18 vectors, advanced error reporting and the
Register Locator DVSEC (R489). -/
def pciRows : List PciRow := [
  ⟨0x04, 0x00000406, 0, 0x00100000⟩,
  ⟨0x10, 0xFFE00000, 0, 0x4⟩, ⟨0x14, 0xFFFFFFFF, 0, 0⟩,
  ⟨0x18, 0xFE000000, 0, 0x4⟩, ⟨0x1C, 0xFFFFFFFF, 0, 0⟩,
  ⟨0x20, 0xE0000000, 0, 0xC⟩, ⟨0x24, 0xFFFFFFFF, 0, 0⟩,
  ⟨0x34, 0, 0, 0x40⟩,
  ⟨0x40, 0, 0, 0x00035001⟩, ⟨0x44, 0x3, 0, 0x8⟩,
  ⟨0x50, 0, 0, 0x00027010⟩, ⟨0x54, 0, 0, 0x10008002⟩, ⟨0x58, 0x70FF, 0, 0x2010⟩,
  ⟨0x70, 0xC0000000, 0, 0x00110011⟩, ⟨0x74, 0, 0, 0xE0000⟩, ⟨0x78, 0, 0, 0xE8000⟩,
  ⟨0x100, 0, 0, 0x16020001⟩, ⟨0x104, 0, 0xFFFFFFFF, 0⟩, ⟨0x108, 0xFFFFFFFF, 0, 0⟩, ⟨0x10C, 0xFFFFFFFF, 0, 0x00462030⟩,
  ⟨0x110, 0, 0xFFFFFFFF, 0⟩, ⟨0x114, 0xFFFFFFFF, 0, 0x00002000⟩, ⟨0x118, 0, 0, 0⟩,
  ⟨0x160, 0, 0, 0x00010023⟩, ⟨0x164, 0, 0, 0x01401E98⟩, ⟨0x168, 0, 0, 0x8⟩, ⟨0x16C, 0, 0, 0xD0100⟩, ⟨0x170, 0, 0, 0⟩]

/-- The row of an offset. -/
def pciRow (off : Nat) : Option PciRow := pciRows.find? fun r => r.off = off

/-- The reset value of a word of configuration space: the identification and class words are free values, other words without a row zero. -/
def pciDefault (off : Nat) : W32 :=
  match pciRow off with
  | some r => BitVec.ofNat 32 r.reset
  | none => if off = 0 || off = 8 || off = 0x2C then Config.pciId off else 0

/-- What a write leaves in a word. -/
def PciRow.merge (r : PciRow) (old v : W32) : W32 :=
  ((old &&& ~~~(BitVec.ofNat 32 r.rw)) ||| (v &&& BitVec.ofNat 32 r.rw)) &&& ~~~(v &&& BitVec.ofNat 32 r.w1c)

end Sys2Proof.Machine
end

