-- ==== Sys2Proof/Machine/Regs.lean ====
section
/-! DEFINITION. The register map (R491): one row per register with its offset in BAR0, the stride and number of its repeats, the bits
software may write, the W1C and W1S bits, the reset value, what the device adds to the plain behaviour, and its half of a pair. -/

namespace Sys2Proof.Machine

/-- What a register does beyond holding its bits; `plain` for nothing. -/
inductive RegKind where
  | plain
  | accState
  | basinState
  | schStatus
  | schCtrl
  | schStep
  | schSeedLo
  | schSeedHi
  | stat
  | schPlainCtx
  | plnStatus
  | plnCtrl
  | synValue
  | synLocal
  | synGlobal
  | cmpFree
  | select
  | cmpGen
  | cmpEntry
  | cmpCtx
  | scrubCtrl
  | cowCtrl
  | cowBase
  | cowFree
  | region
  | rgnCtrl
  | timing
  | mscLooks
  | mscHits
  | mscDirty
  | lnkId
  | lnkTopo
  | lnkRoute
  | lnkColCfg
  | lnkEpoch
  | lnkReshard
  | lnkCtrl
  | colCtrl
  | hifCfg
  | hifCtrl
  | hifStatus
  | hifSqHead
  | hifCqTail
  | hifOvf
  | winCtrl
  | winBase
  | winBias
  | ethPortCtrl
  | ethGidSel
  | ethQpSel
  | ethMrSel
  | ckp
  | ckpStatus
  | dbgCtrl
  | dbgStatus
  | cntCtrl
  | cntSel
  | cntRec
  | glbLo
  | glbHi
  | trace
  | traceCfg
  | secStatus
  | secAlarm
  | secPolicy
  | secBoot
  | secSvn
  | serialLo
  | serialHi
  | fwHub
  | fwPlain
  | unlockFails
  | hbCfg
  | mbCmd
  | mbData
  | progress
  | pwrLimit
  | therm
  | timeLo
  | timeHi
  | rstCtrl
  | rstCtx
  | logHead
  | logSel
  | logEntry
  | msixCtrl
  | hdmCtrl
  deriving DecidableEq, Repr

/-- A register alone, or a half of a 64-bit pair (R12). -/
inductive RegHalf where
  | single
  | lo
  | hi
  deriving DecidableEq, Repr

/-- A row of the register map. -/
structure RegRow where
  name   : String
  base   : Nat
  stride : Nat
  count  : Nat
  rw     : Nat
  w1c    : Nat
  w1s    : Nat
  reset  : Nat
  kind   : RegKind
  half   : RegHalf
  deriving DecidableEq, Repr

/-- The CORE registers. -/
def regsCore : List RegRow := [
  ⟨"CORE_CAPS", 0x100000, 0x1000, 256, 0x0, 0x0, 0x0, 0x1800FF20, .plain, .single⟩,
  ⟨"CORE_ACC_STATE", 0x100004, 0x1000, 256, 0x0, 0x0, 0x0, 0x0, .accState, .single⟩,
  ⟨"CORE_BASIN_STATE0", 0x100008, 0x1000, 256, 0x0, 0x0, 0x0, 0x0, .basinState, .single⟩,
  ⟨"CORE_BASIN_STATE1", 0x10000C, 0x1000, 256, 0x0, 0x0, 0x0, 0x0, .basinState, .single⟩,
  ⟨"CORE_BASIN_STATE2", 0x100010, 0x1000, 256, 0x0, 0x0, 0x0, 0x0, .basinState, .single⟩,
  ⟨"CORE_BASIN_STATE3", 0x100014, 0x1000, 256, 0x0, 0x0, 0x0, 0x0, .basinState, .single⟩,
  ⟨"CORE_BASIN_STATE4", 0x100018, 0x1000, 256, 0x0, 0x0, 0x0, 0x0, .basinState, .single⟩,
  ⟨"CORE_BASIN_STATE5", 0x10001C, 0x1000, 256, 0x0, 0x0, 0x0, 0x0, .basinState, .single⟩,
  ⟨"CORE_BASIN_STATE6", 0x100020, 0x1000, 256, 0x0, 0x0, 0x0, 0x0, .basinState, .single⟩,
  ⟨"CORE_BASIN_STATE7", 0x100024, 0x1000, 256, 0x0, 0x0, 0x0, 0x0, .basinState, .single⟩,
  ⟨"CORE_FAULT", 0x100028, 0x1000, 256, 0x0, 0x80000000, 0x0, 0x0, .plain, .single⟩,
  ⟨"CORE_FAULT_TAG", 0x10002C, 0x1000, 256, 0x0, 0x0, 0x0, 0x0, .plain, .single⟩,
  ⟨"CORE_FAULT_INFO", 0x100030, 0x1000, 256, 0x0, 0x0, 0x0, 0x0, .plain, .single⟩,
  ⟨"CORE_ECC_CORR", 0x100034, 0x1000, 256, 0x0, 0x0, 0x0, 0x0, .plain, .single⟩]

/-- The SCH registers. -/
def regsSch : List RegRow := [
  ⟨"SCH_CTX_STATUS", 0x58000, 0x100, 16, 0x0, 0x0, 0x0, 0x0, .schStatus, .single⟩,
  ⟨"SCH_CTX_CTRL", 0x58004, 0x100, 16, 0x0, 0x0, 0x0, 0x0, .schCtrl, .single⟩,
  ⟨"SCH_CTX_CONFIG", 0x58008, 0x100, 16, 0xFFFF003F, 0x0, 0x0, 0x27100020, .plain, .single⟩,
  ⟨"SCH_CTX_STEP", 0x5800C, 0x100, 16, 0x0, 0x0, 0x0, 0x0, .schStep, .single⟩,
  ⟨"SCH_CTX_SEED_LO", 0x58010, 0x100, 16, 0x0, 0x0, 0x0, 0x0, .schSeedLo, .lo⟩,
  ⟨"SCH_CTX_SEED_HI", 0x58014, 0x100, 16, 0x0, 0x0, 0x0, 0x0, .schSeedHi, .hi⟩,
  ⟨"SCH_CTX_STAT_BASE_LO", 0x58018, 0x100, 16, 0xFFFFF000, 0x0, 0x0, 0x0, .stat, .lo⟩,
  ⟨"SCH_CTX_STAT_BASE_HI", 0x5801C, 0x100, 16, 0xFFFFFFFF, 0x0, 0x0, 0x0, .stat, .hi⟩,
  ⟨"SCH_CTX_STAT_SLOTS", 0x58020, 0x100, 16, 0xFFFF, 0x0, 0x0, 0x0, .stat, .single⟩,
  ⟨"SCH_PLAIN_CTX", 0x59000, 0x4, 16, 0x8000000F, 0x0, 0x0, 0x0, .schPlainCtx, .single⟩]

/-- The PLN registers. -/
def regsPln : List RegRow := [
  ⟨"PLN_STATUS", 0x48000, 0x100, 16, 0x0, 0x0, 0x0, 0x0, .plnStatus, .single⟩,
  ⟨"PLN_CTRL", 0x48004, 0x100, 16, 0x0, 0x0, 0x0, 0x0, .plnCtrl, .single⟩,
  ⟨"PLN_FAULT", 0x48008, 0x100, 16, 0x0, 0x80000000, 0x0, 0x0, .plain, .single⟩,
  ⟨"PLN_FAULT_TAG", 0x4800C, 0x100, 16, 0x0, 0x0, 0x0, 0x0, .plain, .single⟩,
  ⟨"PLN_NEXT_TAG", 0x48010, 0x100, 16, 0x0, 0x0, 0x0, 0x0, .plain, .single⟩,
  ⟨"PLN_WAIT_TARGET", 0x48014, 0x100, 16, 0x0, 0x0, 0x0, 0x0, .plain, .single⟩,
  ⟨"PLN_SPEC_REPLAYS", 0x48018, 0x100, 16, 0x0, 0x0, 0x0, 0x0, .plain, .single⟩]

/-- The SYN registers. -/
def regsSyn : List RegRow := [
  ⟨"SYN_OBJ_SEL", 0x50000, 0x4, 1, 0x3FFF, 0x0, 0x0, 0x0, .plain, .single⟩,
  ⟨"SYN_OBJ_VALUE", 0x50004, 0x4, 1, 0xFFFFFFFF, 0x0, 0x0, 0x0, .synValue, .single⟩,
  ⟨"SYN_REMOTE_DROP", 0x50008, 0x4, 1, 0x0, 0x0, 0x0, 0x0, .plain, .single⟩,
  ⟨"SYN_CTX_LOCAL", 0x50100, 0x8, 16, 0xBFFF3FFF, 0x0, 0x0, 0x0, .synLocal, .single⟩,
  ⟨"SYN_CTX_GLOBAL", 0x50104, 0x8, 16, 0xBFFF3FFF, 0x0, 0x0, 0x0, .synGlobal, .single⟩]

/-- The CMP registers. -/
def regsCmp : List RegRow := [
  ⟨"CMP_CAPS", 0x68000, 0x4, 1, 0x0, 0x0, 0x0, 0x18000FF, .plain, .single⟩,
  ⟨"CMP_SLOTS_FREE", 0x68004, 0x4, 1, 0x0, 0x0, 0x0, 0x180, .cmpFree, .single⟩,
  ⟨"CMP_SLOT_WAITS", 0x68008, 0x4, 1, 0x0, 0x0, 0x0, 0x0, .plain, .single⟩,
  ⟨"CMP_TABLE_SEL", 0x6800C, 0x4, 1, 0xFF, 0x0, 0x0, 0x0, .select, .single⟩,
  ⟨"CMP_TABLE_GEN", 0x68010, 0x4, 1, 0x0, 0x0, 0x0, 0x0, .cmpGen, .single⟩,
  ⟨"CMP_TABLE_ENTRY", 0x68014, 0x4, 4, 0x0, 0x0, 0x0, 0x0, .cmpEntry, .single⟩,
  ⟨"CMP_CTX_HANDLES", 0x68100, 0x10, 16, 0x8000FFFF, 0x0, 0x0, 0x0, .cmpCtx, .single⟩,
  ⟨"CMP_CTX_HIST_LO", 0x68104, 0x10, 16, 0xFFFFF000, 0x0, 0x0, 0x0, .cmpCtx, .lo⟩,
  ⟨"CMP_CTX_HIST_HI", 0x68108, 0x10, 16, 0xFFFFFFFF, 0x0, 0x0, 0x0, .cmpCtx, .hi⟩]

/-- The MEM registers. -/
def regsMem : List RegRow := [
  ⟨"MEM_CAPS", 0x20000, 0x4, 1, 0x0, 0x0, 0x0, 0xC004040, .plain, .single⟩,
  ⟨"MEM_DDR_BYTES_LO", 0x20004, 0x4, 1, 0x0, 0x0, 0x0, 0x0, .plain, .lo⟩,
  ⟨"MEM_DDR_BYTES_HI", 0x20008, 0x4, 1, 0x0, 0x0, 0x0, 0x0, .plain, .hi⟩,
  ⟨"MEM_SCRUB_CTRL", 0x2000C, 0x4, 1, 0xFFFF0001, 0x0, 0x2, 0x180001, .scrubCtrl, .single⟩,
  ⟨"MEM_SCRUB_STATUS", 0x20010, 0x4, 1, 0x0, 0x0, 0x0, 0x0, .plain, .single⟩,
  ⟨"MEM_POISON_COUNT", 0x20014, 0x4, 1, 0x0, 0x0, 0x0, 0x0, .plain, .single⟩,
  ⟨"MEM_REMOTE_REFUSED_COUNT", 0x20018, 0x4, 1, 0x0, 0x0, 0x0, 0x0, .plain, .single⟩,
  ⟨"MEM_COW_CTRL", 0x20020, 0x4, 1, 0xF1, 0x0, 0x0, 0x0, .cowCtrl, .single⟩,
  ⟨"MEM_COW_EPOCH", 0x20024, 0x4, 1, 0x0, 0x0, 0x0, 0x0, .plain, .single⟩,
  ⟨"MEM_COW_TABLE_LO", 0x20028, 0x4, 1, 0xFFFF0000, 0x0, 0x0, 0x0, .cowBase, .lo⟩,
  ⟨"MEM_COW_TABLE_HI", 0x2002C, 0x4, 1, 0x3FF, 0x0, 0x0, 0x0, .cowBase, .hi⟩,
  ⟨"MEM_COW_POOL_LO", 0x20030, 0x4, 1, 0xFFFF0000, 0x0, 0x0, 0x0, .cowBase, .lo⟩,
  ⟨"MEM_COW_POOL_HI", 0x20034, 0x4, 1, 0x3FF, 0x0, 0x0, 0x0, .cowBase, .hi⟩,
  ⟨"MEM_COW_POOL_PAGES", 0x20038, 0x4, 1, 0xFFFFFFFF, 0x0, 0x0, 0x0, .plain, .single⟩,
  ⟨"MEM_COW_POOL_FREE", 0x2003C, 0x4, 1, 0x0, 0x0, 0x0, 0x0, .cowFree, .single⟩,
  ⟨"MEM_COW_COPIES", 0x20040, 0x4, 1, 0x0, 0x0, 0x0, 0x0, .plain, .single⟩,
  ⟨"MEM_COW_WAITS", 0x20044, 0x4, 1, 0x0, 0x0, 0x0, 0x0, .plain, .single⟩,
  ⟨"MEM_RGN_BASE_LO", 0x20400, 0x10, 64, 0xFFE00000, 0x0, 0x0, 0x0, .region, .lo⟩,
  ⟨"MEM_RGN_BASE_HI", 0x20404, 0x10, 64, 0x3FF, 0x0, 0x0, 0x0, .region, .hi⟩,
  ⟨"MEM_RGN_SIZE", 0x20408, 0x10, 64, 0xFFFFFFFF, 0x0, 0x0, 0x0, .region, .single⟩,
  ⟨"MEM_RGN_CTRL", 0x2040C, 0x10, 64, 0x800F0037, 0x0, 0x0, 0x0, .rgnCtrl, .single⟩]

/-- The HBM registers. -/
def regsHbm : List RegRow := [
  ⟨"HBM_STATUS", 0x30000, 0x40, 12, 0x0, 0x0, 0x0, 0x0, .plain, .single⟩,
  ⟨"HBM_ECC_CORR", 0x30004, 0x40, 12, 0x0, 0x0, 0x0, 0x0, .plain, .single⟩,
  ⟨"HBM_ECC_UNCORR", 0x30008, 0x40, 12, 0x0, 0x0, 0x0, 0x0, .plain, .single⟩]

/-- The DDR registers. -/
def regsDdr : List RegRow := [
  ⟨"DDR_STATUS", 0x38000, 0x40, 8, 0x0, 0x0, 0x0, 0x0, .plain, .single⟩,
  ⟨"DDR_CAP", 0x38004, 0x40, 8, 0x0, 0x0, 0x0, 0x0, .plain, .single⟩,
  ⟨"DDR_ECC_CORR", 0x38008, 0x40, 8, 0x0, 0x0, 0x0, 0x0, .plain, .single⟩,
  ⟨"DDR_ECC_UNCORR", 0x3800C, 0x40, 8, 0x0, 0x0, 0x0, 0x0, .plain, .single⟩]

/-- The MSC registers. -/
def regsMsc : List RegRow := [
  ⟨"MSC_LOOKUPS", 0x28000, 0x40, 12, 0x0, 0x0, 0x0, 0x0, .mscLooks, .single⟩,
  ⟨"MSC_HITS", 0x28004, 0x40, 12, 0x0, 0x0, 0x0, 0x0, .mscHits, .single⟩,
  ⟨"MSC_ECC_CORR", 0x28008, 0x40, 12, 0x0, 0x0, 0x0, 0x0, .plain, .single⟩,
  ⟨"MSC_DIRTY", 0x2800C, 0x40, 12, 0x0, 0x0, 0x0, 0x0, .mscDirty, .single⟩,
  ⟨"MSC_SYS_WAYS", 0x28400, 0x4, 1, 0xFFFF, 0x0, 0x0, 0xFFFF, .plain, .single⟩,
  ⟨"MSC_CTX_WAYS", 0x28440, 0x4, 16, 0xFFFF, 0x0, 0x0, 0xFFFF, .plain, .single⟩]

/-- The LNK registers. -/
def regsLnk : List RegRow := [
  ⟨"LNK_CAPS", 0x70000, 0x4, 1, 0x0, 0x0, 0x0, 0x40100480, .plain, .single⟩,
  ⟨"LNK_DEV_ID", 0x70004, 0x4, 1, 0x80000FFF, 0x0, 0x0, 0x0, .lnkId, .single⟩,
  ⟨"LNK_TOPO", 0x70008, 0x4, 1, 0x1, 0x0, 0x0, 0x0, .lnkTopo, .single⟩,
  ⟨"LNK_ROUTE_SEL", 0x7000C, 0x4, 1, 0xFFF, 0x0, 0x0, 0x0, .plain, .single⟩,
  ⟨"LNK_ROUTE_DATA", 0x70010, 0x4, 1, 0x8000FFFF, 0x0, 0x0, 0x0, .lnkRoute, .single⟩,
  ⟨"LNK_EPOCH_DROP", 0x70014, 0x4, 1, 0x0, 0x0, 0x0, 0x0, .plain, .single⟩,
  ⟨"LNK_COL_CFG", 0x70100, 0x8, 16, 0x800000C7, 0x0, 0x0, 0x0, .lnkColCfg, .single⟩,
  ⟨"LNK_VC_WEIGHT", 0x70104, 0x8, 16, 0xFFFFFF, 0x0, 0x0, 0x104040, .plain, .single⟩,
  ⟨"LNK_CTX_EPOCH", 0x70200, 0x10, 16, 0x0, 0x0, 0x0, 0x0, .lnkEpoch, .single⟩,
  ⟨"LNK_CTX_RESHARD", 0x70204, 0x10, 16, 0x0, 0x0, 0x0, 0x0, .lnkReshard, .single⟩,
  ⟨"LNK_COLL_FAULT", 0x70208, 0x10, 16, 0x0, 0x0, 0x0, 0x0, .plain, .single⟩,
  ⟨"LNK_STATUS", 0x71000, 0x40, 64, 0x0, 0x0, 0x0, 0x0, .plain, .single⟩,
  ⟨"LNK_CTRL", 0x71004, 0x40, 64, 0x1, 0x0, 0x0, 0x0, .lnkCtrl, .single⟩,
  ⟨"LNK_RETRY", 0x71008, 0x40, 64, 0x0, 0x0, 0x0, 0x0, .plain, .single⟩,
  ⟨"LNK_FEC_CORR", 0x7100C, 0x40, 64, 0x0, 0x0, 0x0, 0x0, .plain, .single⟩,
  ⟨"LNK_FEC_UNCORR", 0x71010, 0x40, 64, 0x0, 0x0, 0x0, 0x0, .plain, .single⟩,
  ⟨"LNK_VC0_SHAPED", 0x71014, 0x40, 64, 0x0, 0x0, 0x0, 0x0, .timing, .single⟩,
  ⟨"LNK_PROTO_DROP", 0x71018, 0x40, 64, 0x0, 0x0, 0x0, 0x0, .plain, .single⟩]

/-- The COL registers. -/
def regsCol : List RegRow := [
  ⟨"COL_STATUS", 0x78000, 0x10, 16, 0x0, 0x0, 0x0, 0x0, .plain, .single⟩,
  ⟨"COL_CTRL", 0x78004, 0x10, 16, 0x1, 0x0, 0x2, 0x0, .colCtrl, .single⟩]

/-- The HIF registers. -/
def regsHif : List RegRow := [
  ⟨"HIF_CAPS", 0x10000, 0x4, 1, 0x0, 0x0, 0x0, 0x11120400, .plain, .single⟩,
  ⟨"HIF_LINK_STATUS", 0x10004, 0x4, 1, 0x0, 0x0, 0x0, 0x0, .plain, .single⟩,
  ⟨"HIF_POLL", 0x10008, 0x4, 1, 0xFFFF, 0x0, 0x0, 0x3E8, .plain, .single⟩,
  ⟨"HIF_DETACH_COUNT", 0x1000C, 0x4, 1, 0x0, 0x0, 0x0, 0x0, .plain, .single⟩,
  ⟨"HIF_RING_BASE_LO", 0x10100, 0x40, 17, 0xFFFFF000, 0x0, 0x0, 0x0, .hifCfg, .lo⟩,
  ⟨"HIF_RING_BASE_HI", 0x10104, 0x40, 17, 0xFFFFFFFF, 0x0, 0x0, 0x0, .hifCfg, .hi⟩,
  ⟨"HIF_CPL_BASE_LO", 0x10108, 0x40, 17, 0xFFFFF000, 0x0, 0x0, 0x0, .hifCfg, .lo⟩,
  ⟨"HIF_CPL_BASE_HI", 0x1010C, 0x40, 17, 0xFFFFFFFF, 0x0, 0x0, 0x0, .hifCfg, .hi⟩,
  ⟨"HIF_DB_BASE_LO", 0x10110, 0x40, 17, 0xFFFFFFC0, 0x0, 0x0, 0x0, .hifCfg, .lo⟩,
  ⟨"HIF_DB_BASE_HI", 0x10114, 0x40, 17, 0xFFFFFFFF, 0x0, 0x0, 0x0, .hifCfg, .hi⟩,
  ⟨"HIF_RING_CFG", 0x10118, 0x40, 17, 0xFFFF0F0F, 0x0, 0x0, 0x404, .hifCfg, .single⟩,
  ⟨"HIF_PAIR_CTRL", 0x1011C, 0x40, 17, 0x1, 0x0, 0x0, 0x0, .hifCtrl, .single⟩,
  ⟨"HIF_PAIR_STATUS", 0x10120, 0x40, 17, 0x0, 0x0, 0x0, 0x0, .hifStatus, .single⟩,
  ⟨"HIF_SQ_HEAD", 0x10124, 0x40, 17, 0x0, 0x0, 0x0, 0x0, .hifSqHead, .single⟩,
  ⟨"HIF_CQ_TAIL", 0x10128, 0x40, 17, 0x0, 0x0, 0x0, 0x0, .hifCqTail, .single⟩,
  ⟨"HIF_STALE_RETRIES", 0x1012C, 0x40, 17, 0x0, 0x0, 0x0, 0x0, .plain, .single⟩,
  ⟨"HIF_OVF_COUNT", 0x10130, 0x40, 17, 0x0, 0x0, 0x0, 0x0, .hifOvf, .single⟩]

/-- The WIN registers. -/
def regsWin : List RegRow := [
  ⟨"WIN_CTRL", 0x18000, 0x4, 1, 0x3, 0x0, 0x0, 0x0, .winCtrl, .single⟩,
  ⟨"WIN_STATUS", 0x18004, 0x4, 1, 0x0, 0x0, 0x0, 0x0, .plain, .single⟩,
  ⟨"WIN_BASE_LO", 0x18008, 0x4, 1, 0xFFE00000, 0x0, 0x0, 0x0, .winBase, .lo⟩,
  ⟨"WIN_BASE_HI", 0x1800C, 0x4, 1, 0x3FF, 0x0, 0x0, 0x0, .winBase, .hi⟩,
  ⟨"WIN_BIAS_FLIPS", 0x18010, 0x4, 1, 0x0, 0x0, 0x0, 0x0, .plain, .single⟩,
  ⟨"WIN_BIAS", 0x18020, 0x4, 8, 0xFFFFFFFF, 0x0, 0x0, 0x0, .winBias, .single⟩]

/-- The ETH registers. -/
def regsEth : List RegRow := [
  ⟨"ETH_CAPS", 0x80000, 0x4, 1, 0x0, 0x0, 0x0, 0x2001000, .plain, .single⟩,
  ⟨"ETH_PORT_CTRL", 0x80010, 0x20, 2, 0xFF01, 0x0, 0x0, 0x0, .ethPortCtrl, .single⟩,
  ⟨"ETH_PORT_STATUS", 0x80014, 0x20, 2, 0x0, 0x0, 0x0, 0x0, .plain, .single⟩,
  ⟨"ETH_MAC_LO", 0x80018, 0x20, 2, 0xFFFFFFFF, 0x0, 0x0, 0x0, .plain, .lo⟩,
  ⟨"ETH_MAC_HI", 0x8001C, 0x20, 2, 0xFFFF, 0x0, 0x0, 0x0, .plain, .hi⟩,
  ⟨"ETH_GID_SEL", 0x80100, 0x4, 1, 0xFFF, 0x0, 0x0, 0x0, .ethGidSel, .single⟩,
  ⟨"ETH_GID_DATA", 0x80104, 0x4, 4, 0xFFFFFFFF, 0x0, 0x0, 0x0, .plain, .single⟩,
  ⟨"ETH_QP_SEL", 0x80200, 0x4, 1, 0xFFF, 0x0, 0x0, 0x0, .ethQpSel, .single⟩,
  ⟨"ETH_QP_DATA0", 0x80204, 0x4, 1, 0xFFE00000, 0x0, 0x0, 0x0, .plain, .single⟩,
  ⟨"ETH_QP_DATA1", 0x80208, 0x4, 1, 0xFFFFFF, 0x0, 0x0, 0x0, .plain, .single⟩,
  ⟨"ETH_QP_DATA2", 0x8020C, 0x4, 1, 0xFFFFFF, 0x0, 0x0, 0x0, .plain, .single⟩,
  ⟨"ETH_QP_DATA3", 0x80210, 0x4, 1, 0xFFFFFF, 0x0, 0x0, 0x0, .plain, .single⟩,
  ⟨"ETH_QP_DATA4", 0x80214, 0x4, 1, 0xFFFFFFFF, 0x0, 0x0, 0x0, .plain, .single⟩,
  ⟨"ETH_QP_DATA5", 0x80218, 0x4, 1, 0xFFFFFFFF, 0x0, 0x0, 0x0, .plain, .single⟩,
  ⟨"ETH_QP_DATA6", 0x8021C, 0x4, 1, 0xFFFFFFFF, 0x0, 0x0, 0x0, .plain, .single⟩,
  ⟨"ETH_QP_DATA7", 0x80220, 0x4, 1, 0xFFFFFFFF, 0x0, 0x0, 0x0, .plain, .single⟩,
  ⟨"ETH_QP_DATA8", 0x80224, 0x4, 1, 0xFFFFFFFF, 0x0, 0x0, 0x0, .plain, .single⟩,
  ⟨"ETH_QP_DATA9", 0x80228, 0x4, 1, 0xFFFFFFFF, 0x0, 0x0, 0x0, .plain, .single⟩,
  ⟨"ETH_QP_DATA10", 0x8022C, 0x4, 1, 0xFFFC000F, 0x0, 0x0, 0x0, .plain, .single⟩,
  ⟨"ETH_QP_DATA11", 0x80230, 0x4, 1, 0xFFFF, 0x0, 0x0, 0x0, .plain, .single⟩,
  ⟨"ETH_MR_SEL", 0x80300, 0x4, 1, 0xFFF, 0x0, 0x0, 0x0, .ethMrSel, .single⟩,
  ⟨"ETH_MR_DATA0", 0x80304, 0x4, 1, 0xEF0000FF, 0x0, 0x0, 0x0, .plain, .single⟩,
  ⟨"ETH_MR_DATA1", 0x80308, 0x4, 1, 0xFFFFFFFF, 0x0, 0x0, 0x0, .plain, .single⟩,
  ⟨"ETH_MR_DATA2", 0x8030C, 0x4, 1, 0xFFFFFFFF, 0x0, 0x0, 0x0, .plain, .single⟩,
  ⟨"ETH_MR_DATA3", 0x80310, 0x4, 1, 0xFFFFFFFF, 0x0, 0x0, 0x0, .plain, .single⟩,
  ⟨"ETH_MR_DATA4", 0x80314, 0x4, 1, 0xFFFFFFFF, 0x0, 0x0, 0x0, .plain, .single⟩,
  ⟨"ETH_RX_FRAMES", 0x80400, 0x40, 2, 0x0, 0x0, 0x0, 0x0, .plain, .single⟩,
  ⟨"ETH_TX_FRAMES", 0x80404, 0x40, 2, 0x0, 0x0, 0x0, 0x0, .plain, .single⟩,
  ⟨"ETH_FCS_ERR", 0x80408, 0x40, 2, 0x0, 0x0, 0x0, 0x0, .plain, .single⟩,
  ⟨"ETH_FEC_CORR", 0x8040C, 0x40, 2, 0x0, 0x0, 0x0, 0x0, .plain, .single⟩,
  ⟨"ETH_FEC_UNCORR", 0x80410, 0x40, 2, 0x0, 0x0, 0x0, 0x0, .plain, .single⟩,
  ⟨"ETH_RDMA_NAK", 0x80414, 0x40, 2, 0x0, 0x0, 0x0, 0x0, .plain, .single⟩,
  ⟨"ETH_CNP_RX", 0x80418, 0x40, 2, 0x0, 0x0, 0x0, 0x0, .plain, .single⟩,
  ⟨"ETH_DROP", 0x8041C, 0x40, 2, 0x0, 0x0, 0x0, 0x0, .plain, .single⟩]

/-- The CKP registers. -/
def regsCkp : List RegRow := [
  ⟨"CKP_STATUS", 0x88000, 0x4, 1, 0x0, 0x10000000, 0x0, 0x0, .ckpStatus, .single⟩,
  ⟨"CKP_CTRL", 0x88004, 0x4, 1, 0xF, 0x0, 0x0, 0x0, .ckp, .single⟩,
  ⟨"CKP_JOB_ID_LO", 0x88008, 0x4, 1, 0xFFFFFFFF, 0x0, 0x0, 0x0, .ckp, .lo⟩,
  ⟨"CKP_JOB_ID_HI", 0x8800C, 0x4, 1, 0xFFFFFFFF, 0x0, 0x0, 0x0, .ckp, .hi⟩,
  ⟨"CKP_AREA_LO", 0x88010, 0x4, 1, 0xFFE00000, 0x0, 0x0, 0x0, .ckp, .lo⟩,
  ⟨"CKP_AREA_HI", 0x88014, 0x4, 1, 0x3FF, 0x0, 0x0, 0x0, .ckp, .hi⟩,
  ⟨"CKP_VERIFY_ADDR_LO", 0x88018, 0x4, 1, 0xFFFFFFC0, 0x0, 0x0, 0x0, .ckp, .lo⟩,
  ⟨"CKP_VERIFY_ADDR_HI", 0x8801C, 0x4, 1, 0x3FF, 0x0, 0x0, 0x0, .ckp, .hi⟩,
  ⟨"CKP_SLOT_UNITS", 0x88020, 0x4, 1, 0xFFFFFFFF, 0x0, 0x0, 0x0, .ckp, .single⟩,
  ⟨"CKP_POLICY", 0x88024, 0x4, 1, 0x800000FF, 0x0, 0x0, 0x94, .ckp, .single⟩,
  ⟨"CKP_PARTNER_DEV", 0x88028, 0x4, 1, 0xFFF, 0x0, 0x0, 0x0, .ckp, .single⟩,
  ⟨"CKP_PARTNER_BASE_LO", 0x8802C, 0x4, 1, 0xFFE00000, 0x0, 0x0, 0x0, .ckp, .lo⟩,
  ⟨"CKP_PARTNER_BASE_HI", 0x88030, 0x4, 1, 0x3FF, 0x0, 0x0, 0x0, .ckp, .hi⟩,
  ⟨"CKP_HOSTED_BASE_LO", 0x88034, 0x4, 1, 0xFFE00000, 0x0, 0x0, 0x0, .ckp, .lo⟩,
  ⟨"CKP_HOSTED_BASE_HI", 0x88038, 0x4, 1, 0x3FF, 0x0, 0x0, 0x0, .ckp, .hi⟩,
  ⟨"CKP_HOSTED_CFG", 0x8803C, 0x4, 1, 0xFFFFFFFF, 0x0, 0x0, 0x0, .ckp, .single⟩,
  ⟨"CKP_FLASH_BASE", 0x88040, 0x4, 1, 0xFFFFFFFF, 0x0, 0x0, 0x8000, .ckp, .single⟩,
  ⟨"CKP_STORE_QPS", 0x88044, 0x4, 1, 0x1FF01FF, 0x0, 0x0, 0x0, .ckp, .single⟩,
  ⟨"CKP_STORE_RKEY", 0x88048, 0x4, 1, 0xFFFFFFFF, 0x0, 0x0, 0x0, .ckp, .single⟩,
  ⟨"CKP_STORE_VA_LO", 0x8804C, 0x4, 1, 0xFFFFFFFF, 0x0, 0x0, 0x0, .ckp, .lo⟩,
  ⟨"CKP_STORE_VA_HI", 0x88050, 0x4, 1, 0xFFFFFFFF, 0x0, 0x0, 0x0, .ckp, .hi⟩,
  ⟨"CKP_LAST_STOP_NS", 0x88054, 0x4, 1, 0x0, 0x0, 0x0, 0x0, .ckp, .single⟩,
  ⟨"CKP_DEFERRED", 0x88058, 0x4, 1, 0x0, 0x0, 0x0, 0x0, .ckp, .single⟩]

/-- The AGE registers. -/
def regsAge : List RegRow := [
  ⟨"AGE_CTRL", 0x90000, 0x4, 1, 0xFFFF003F, 0x0, 0x0, 0x10F0014, .plain, .single⟩,
  ⟨"AGE_MARGIN_STATUS", 0x90004, 0x4, 1, 0x0, 0x0, 0x0, 0x0, .plain, .single⟩,
  ⟨"AGE_ECC_LIMIT", 0x90008, 0x4, 1, 0xFFFFFFFF, 0x0, 0x0, 0x400, .plain, .single⟩,
  ⟨"AGE_PLAIN", 0x90100, 0x10, 16, 0x0, 0x0, 0x0, 0xA8C00000, .plain, .single⟩,
  ⟨"AGE_SLACK", 0x90104, 0x10, 16, 0x0, 0x0, 0x0, 0x0, .plain, .single⟩]

/-- The DBG registers. -/
def regsDbg : List RegRow := [
  ⟨"DBG_CTRL", 0x98000, 0x4, 1, 0x7C, 0x0, 0x3, 0x20, .dbgCtrl, .single⟩,
  ⟨"DBG_STATUS", 0x98004, 0x4, 1, 0x0, 0x0, 0x0, 0x0, .dbgStatus, .single⟩,
  ⟨"DBG_FANOUT", 0x98008, 0x4, 2, 0xFFF8FFF, 0x0, 0x0, 0x0, .plain, .single⟩,
  ⟨"DBG_BUF_LO", 0x98010, 0x4, 1, 0xFFE00000, 0x0, 0x0, 0x0, .plain, .lo⟩,
  ⟨"DBG_BUF_HI", 0x98014, 0x4, 1, 0x3FF, 0x0, 0x0, 0x0, .plain, .hi⟩,
  ⟨"DBG_BUF_UNITS", 0x98018, 0x4, 1, 0xFFFFFFFF, 0x0, 0x0, 0x0, .plain, .single⟩,
  ⟨"DBG_SCAN_CFG", 0x9801C, 0x4, 1, 0x7, 0x0, 0x0, 0x0, .plain, .single⟩,
  ⟨"DBG_SCAN_CORES", 0x98020, 0x4, 8, 0xFFFFFFFF, 0x0, 0x0, 0x0, .plain, .single⟩,
  ⟨"DBG_BREAK_CTRL", 0x98040, 0x4, 1, 0xE000000F, 0x0, 0x0, 0x0, .plain, .single⟩,
  ⟨"DBG_BREAK_ID", 0x98044, 0x4, 1, 0xFFFFFFFF, 0x0, 0x0, 0x0, .plain, .single⟩,
  ⟨"DBG_BREAK_MASK", 0x98048, 0x4, 1, 0xFFFFFFFF, 0x0, 0x0, 0x0, .plain, .single⟩,
  ⟨"DBG_BREAK_STEP", 0x9804C, 0x4, 1, 0xFFFFFFFF, 0x0, 0x0, 0x0, .plain, .single⟩,
  ⟨"DBG_STOP_TIME_LO", 0x98050, 0x4, 1, 0x0, 0x0, 0x0, 0x0, .plain, .lo⟩,
  ⟨"DBG_STOP_TIME_HI", 0x98054, 0x4, 1, 0x0, 0x0, 0x0, 0x0, .plain, .hi⟩]

/-- The CNT registers. -/
def regsCnt : List RegRow := [
  ⟨"CNT_CAPS", 0xA0000, 0x4, 1, 0x0, 0x0, 0x0, 0x20100000, .plain, .single⟩,
  ⟨"CNT_CTRL", 0xA0004, 0x4, 1, 0x0, 0x0, 0x1, 0x0, .cntCtrl, .single⟩,
  ⟨"CNT_SEL", 0xA0008, 0x4, 1, 0x800003FF, 0x0, 0x0, 0x0, .cntSel, .single⟩,
  ⟨"CNT_REC", 0xA0080, 0x4, 32, 0x0, 0x0, 0x0, 0x0, .cntRec, .single⟩,
  ⟨"CNT_GLB_LO", 0xA0100, 0x8, 16, 0x0, 0x0, 0x0, 0x0, .glbLo, .lo⟩,
  ⟨"CNT_GLB_HI", 0xA0104, 0x8, 16, 0x0, 0x0, 0x0, 0x0, .glbHi, .hi⟩,
  ⟨"CNT_TRACE_LO", 0xA0200, 0x10, 16, 0xFFFFF000, 0x0, 0x0, 0x0, .trace, .lo⟩,
  ⟨"CNT_TRACE_HI", 0xA0204, 0x10, 16, 0xFFFFFFFF, 0x0, 0x0, 0x0, .trace, .hi⟩,
  ⟨"CNT_TRACE_CFG", 0xA0208, 0x10, 16, 0x800000DF, 0x40000000, 0x0, 0xA, .traceCfg, .single⟩,
  ⟨"CNT_TRACE_HEAD", 0xA020C, 0x10, 16, 0x0, 0x0, 0x0, 0x0, .plain, .single⟩]

/-- The SEC registers. -/
def regsSec : List RegRow := [
  ⟨"SEC_STATUS", 0xA8000, 0x4, 1, 0x0, 0x0, 0x0, 0x0, .secStatus, .single⟩,
  ⟨"SEC_ALARM", 0xA8004, 0x4, 1, 0x0, 0x1F, 0x0, 0x0, .secAlarm, .single⟩,
  ⟨"SEC_POLICY", 0xA8008, 0x4, 1, 0x0, 0x0, 0x0, 0x0, .secPolicy, .single⟩,
  ⟨"SEC_BOOT", 0xA800C, 0x4, 1, 0x0, 0x0, 0x0, 0x0, .secBoot, .single⟩,
  ⟨"SEC_SVN", 0xA8010, 0x4, 1, 0x0, 0x0, 0x0, 0x0, .secSvn, .single⟩,
  ⟨"SEC_ID_PART", 0xA8014, 0x4, 1, 0x0, 0x0, 0x0, 0x48000000, .plain, .single⟩,
  ⟨"SEC_ID_STEP", 0xA8018, 0x4, 1, 0x0, 0x0, 0x0, 0x101010, .plain, .single⟩,
  ⟨"SEC_ID_SERIAL_LO", 0xA801C, 0x4, 1, 0x0, 0x0, 0x0, 0x0, .serialLo, .lo⟩,
  ⟨"SEC_ID_SERIAL_HI", 0xA8020, 0x4, 1, 0x0, 0x0, 0x0, 0x0, .serialHi, .hi⟩,
  ⟨"SEC_FW_HUB", 0xA8024, 0x4, 1, 0x0, 0x0, 0x0, 0x0, .fwHub, .single⟩,
  ⟨"SEC_FW_PLAIN", 0xA8028, 0x4, 1, 0x0, 0x0, 0x0, 0x0, .fwPlain, .single⟩,
  ⟨"SEC_UNLOCK_FAILS", 0xA802C, 0x4, 1, 0x0, 0x0, 0x0, 0x0, .unlockFails, .single⟩]

/-- The MGT registers. -/
def regsMgt : List RegRow := [
  ⟨"MGT_STATUS", 0xB0000, 0x4, 1, 0x0, 0x800000, 0x0, 0x0, .plain, .single⟩,
  ⟨"MGT_PROGRESS", 0xB0004, 0x4, 1, 0x0, 0x0, 0x0, 0x0, .progress, .single⟩,
  ⟨"MGT_HB_CFG", 0xB0008, 0x4, 1, 0xFFFF, 0x0, 0x0, 0x0, .hbCfg, .single⟩,
  ⟨"MGT_EID", 0xB000C, 0x4, 1, 0x0, 0x0, 0x0, 0x0, .plain, .single⟩,
  ⟨"MGT_MB_CMD", 0xB0010, 0x4, 1, 0xFF00FF, 0x0, 0x0, 0x0, .mbCmd, .single⟩,
  ⟨"MGT_MB_STATUS", 0xB0014, 0x4, 1, 0x0, 0x0, 0x0, 0x0, .plain, .single⟩,
  ⟨"MGT_SENSORS", 0xB0018, 0x4, 1, 0x0, 0x0, 0x0, 0x0, .plain, .single⟩,
  ⟨"MGT_MB_DATA", 0xB0040, 0x4, 68, 0xFFFFFFFF, 0x0, 0x0, 0x0, .mbData, .single⟩]

/-- The CLK registers. -/
def regsClk : List RegRow := [
  ⟨"CLK_PWR_LIMIT", 0xB8000, 0x4, 1, 0xFFFF, 0x0, 0x0, 0xA8C, .pwrLimit, .single⟩,
  ⟨"CLK_PWR_STATUS", 0xB8004, 0x4, 1, 0x0, 0x20000000, 0x0, 0x0, .plain, .single⟩,
  ⟨"CLK_THERM", 0xB8008, 0x4, 1, 0xFF00, 0x0, 0x0, 0x5F00, .therm, .single⟩,
  ⟨"CLK_TIME_LO", 0xB8010, 0x4, 1, 0x0, 0x0, 0x0, 0x0, .timeLo, .lo⟩,
  ⟨"CLK_TIME_HI", 0xB8014, 0x4, 1, 0x0, 0x0, 0x0, 0x0, .timeHi, .hi⟩,
  ⟨"CLK_PLAIN", 0xB8100, 0x4, 16, 0x0, 0x0, 0x0, 0xA8CA8C00, .plain, .single⟩]

/-- The RST registers. -/
def regsRst : List RegRow := [
  ⟨"RST_CTRL", 0xC0000, 0x4, 1, 0x0, 0x0, 0x3, 0x0, .rstCtrl, .single⟩,
  ⟨"RST_CTX", 0xC0004, 0x4, 1, 0x0, 0x0, 0xFFFF, 0x0, .rstCtx, .single⟩,
  ⟨"RST_STATUS", 0xC0008, 0x4, 1, 0x0, 0xFFFF, 0x0, 0x0, .plain, .single⟩,
  ⟨"RST_WARM_COUNT", 0xC000C, 0x4, 1, 0x0, 0x0, 0x0, 0x0, .plain, .single⟩]

/-- The LOG registers. -/
def regsLog : List RegRow := [
  ⟨"LOG_CAPS", 0xC8000, 0x4, 1, 0x0, 0x0, 0x0, 0x3FFF0020, .plain, .single⟩,
  ⟨"LOG_HEAD", 0xC8004, 0x4, 1, 0x0, 0x0, 0x0, 0x0, .logHead, .single⟩,
  ⟨"LOG_SEL", 0xC8008, 0x4, 1, 0x0, 0x0, 0x0, 0x0, .logSel, .single⟩,
  ⟨"LOG_ENTRY", 0xC8020, 0x4, 8, 0x0, 0x0, 0x0, 0x0, .logEntry, .single⟩,
  ⟨"LOG_CTX_LAST", 0xC8100, 0x4, 16, 0x0, 0x0, 0x0, 0x0, .plain, .single⟩]

/-- The CXL component registers, the MSI-X table and its pending-bit array (R491): the RAS capability and the HDM decoder (R489) and 18 vectors
(R487), with the layout and the reset values of CXL and PCI Express (PRESUMED, log entry 134). -/
def regsPci : List RegRow := [
  ⟨"CXL_CAP", 0xD1000, 0x4, 1, 0x0, 0x0, 0x0, 0x02110001, .plain, .single⟩,
  ⟨"CXL_CAP_RAS", 0xD1004, 0x4, 1, 0x0, 0x0, 0x0, 0x10020002, .plain, .single⟩,
  ⟨"CXL_CAP_HDM", 0xD1008, 0x4, 1, 0x0, 0x0, 0x0, 0x20030005, .plain, .single⟩,
  ⟨"CXL_RAS_UNCORR", 0xD1100, 0x4, 1, 0x0, 0x1CFFF, 0x0, 0x0, .plain, .single⟩,
  ⟨"CXL_RAS_UNCORR_MASK", 0xD1104, 0x4, 1, 0x1CFFF, 0x0, 0x0, 0x1CFFF, .plain, .single⟩,
  ⟨"CXL_RAS_UNCORR_SEV", 0xD1108, 0x4, 1, 0x1CFFF, 0x0, 0x0, 0x1CFFF, .plain, .single⟩,
  ⟨"CXL_RAS_CORR", 0xD110C, 0x4, 1, 0x0, 0x7F, 0x0, 0x0, .plain, .single⟩,
  ⟨"CXL_RAS_CORR_MASK", 0xD1110, 0x4, 1, 0x7F, 0x0, 0x0, 0x7F, .plain, .single⟩,
  ⟨"CXL_HDM_CAP", 0xD1200, 0x4, 1, 0x0, 0x0, 0x0, 0x0, .plain, .single⟩,
  ⟨"CXL_HDM_GLOBAL", 0xD1204, 0x4, 1, 0x3, 0x0, 0x0, 0x0, .plain, .single⟩,
  ⟨"CXL_HDM_BASE_LO", 0xD1210, 0x4, 1, 0xF0000000, 0x0, 0x0, 0x0, .plain, .single⟩,
  ⟨"CXL_HDM_BASE_HI", 0xD1214, 0x4, 1, 0xFFFFFFFF, 0x0, 0x0, 0x0, .plain, .single⟩,
  ⟨"CXL_HDM_SIZE_LO", 0xD1218, 0x4, 1, 0xF0000000, 0x0, 0x0, 0x0, .plain, .single⟩,
  ⟨"CXL_HDM_SIZE_HI", 0xD121C, 0x4, 1, 0xFFFFFFFF, 0x0, 0x0, 0x0, .plain, .single⟩,
  ⟨"CXL_HDM_CTRL", 0xD1220, 0x4, 1, 0x3FF, 0x0, 0x0, 0x0, .hdmCtrl, .single⟩,
  ⟨"MSIX_ADDR_LO", 0xE0000, 0x10, 18, 0xFFFFFFFC, 0x0, 0x0, 0x0, .plain, .single⟩,
  ⟨"MSIX_ADDR_HI", 0xE0004, 0x10, 18, 0xFFFFFFFF, 0x0, 0x0, 0x0, .plain, .single⟩,
  ⟨"MSIX_DATA", 0xE0008, 0x10, 18, 0xFFFFFFFF, 0x0, 0x0, 0x0, .plain, .single⟩,
  ⟨"MSIX_CTRL", 0xE000C, 0x10, 18, 0x1, 0x0, 0x0, 0x1, .msixCtrl, .single⟩,
  ⟨"MSIX_PBA", 0xE8000, 0x8, 1, 0x0, 0x0, 0x0, 0x0, .plain, .single⟩]

/-- The register map. -/
def regRows : List RegRow :=
  regsCore ++ regsSch ++ regsPln ++ regsSyn ++ regsCmp ++ regsMem ++ regsHbm ++ regsDdr ++ regsMsc ++ regsLnk ++ regsCol ++ regsHif ++ regsWin ++ regsEth ++ regsCkp ++ regsAge ++ regsDbg ++ regsCnt ++ regsSec ++ regsMgt ++ regsClk ++ regsRst ++ regsLog ++ regsPci

/-- Whether a row names the offset. -/
def RegRow.has (r : RegRow) (off : Nat) : Bool :=
  r.base ≤ off && (off - r.base) % r.stride == 0 && (off - r.base) / r.stride < r.count

/-- The row of an offset; none where nothing is allocated (R491). -/
def regRow (off : Nat) : Option RegRow := regRows.find? fun r => r.has off

/-- Which repeat of its row an offset is. -/
def RegRow.index (r : RegRow) (off : Nat) : Nat := (off - r.base) / r.stride

/-- The reset value of a register (R17). -/
def regDefault (off : Nat) : W32 :=
  match regRow off with
  | none => 0
  | some r => BitVec.ofNat 32 r.reset

end Sys2Proof.Machine
end

