-- ==== Sys2Proof/Machine/Ops.lean ====
section
/-! DEFINITION. The named operations over registers, memory, the event log, completions and faults. -/

namespace Sys2Proof.Machine

/-- The answer of a command. -/
abbrev Result := Host.Outcome State Fault Refusal

/-! ### Registers -/

/-- The value of a register that holds its own bits. -/
def State.reg (s : State) (off : Nat) : W32 := storeGet regDefault s.regs off

/-- A register set by the device. -/
def State.setReg (s : State) (off : Nat) (v : W32) : State := { s with regs := storePut regDefault s.regs off v }

/-- A saturating counter register increased. -/
def State.bump (s : State) (off : Nat) (n : Nat := 1) : State := s.setReg off (satAdd (s.reg off) n)

/-- The 64-bit value of a register pair in force (R12). -/
def State.pairVal (s : State) (lo : Nat) : Nat := (s.reg lo).toNat + (s.reg (lo + 4)).toNat * 2 ^ 32

/-- A register pair set by the device. -/
def State.setPairVal (s : State) (lo v : Nat) : State :=
  (s.setReg lo (BitVec.ofNat 32 v)).setReg (lo + 4) (BitVec.ofNat 32 (v / 2 ^ 32))

/-- The low half that a write of the _HI register applies (R12). -/
def State.heldLo (s : State) (lo : Nat) : W32 := (storeGet (fun _ => none) s.held lo).getD (s.reg lo)

/-- A register pair applied by software: the low half is held no longer (R12). -/
def State.applyPair (s : State) (lo : Nat) (l h : W32) : State :=
  { (s.setReg lo l).setReg (lo + 4) h with held := storePut (fun _ => none) s.held lo none }

/-- The bits of `mask` in a register replaced. -/
def State.setBits (s : State) (off : Nat) (mask v : W32) : State :=
  s.setReg off ((s.reg off &&& ~~~mask) ||| (v &&& mask))

/-- Offsets in BAR0 (R491). -/
def offCore (c k : Nat) : Nat := 0x100000 + 0x1000 * c + k
def offSch (m k : Nat) : Nat := 0x58000 + 0x100 * m + k
def offPln (p k : Nat) : Nat := 0x48000 + 0x100 * p + k
def offHif (r k : Nat) : Nat := 0x10100 + 0x40 * r + k
def offLnk (n k : Nat) : Nat := 0x71000 + 0x40 * n + k
def offRgn (n k : Nat) : Nat := 0x20400 + 0x10 * n + k

/-- What an unlisted byte, word or number of a store reads as where nothing else is said: zero. -/
def zeroByte (_ : Nat) : Byte := 0
def zeroWord (_ : Nat) : W32 := 0
def zeroNat (_ : Nat) : Nat := 0

/-- A free value of 32 bits and the state that has drawn it. -/
def State.draw (s : State) : W32 × State := (Config.freeWord s.free, { s with free := s.free + 1 })

/-! ### Typed records -/

def State.ctx (s : State) (m : Nat) : Ctx := storeGet (fun _ => Ctx.reset) s.ctxs m
def State.setCtx (s : State) (m : Nat) (c : Ctx) : State := { s with ctxs := storePut (fun _ => Ctx.reset) s.ctxs m c }
def State.plain (s : State) (p : Nat) : Plain := storeGet (fun _ => Plain.reset) s.plains p
def State.setPlain (s : State) (p : Nat) (x : Plain) : State :=
  { s with plains := storePut (fun _ => Plain.reset) s.plains p x }
def State.pair (s : State) (r : Nat) : Pair := storeGet (fun _ => Pair.reset) s.pairs r
def State.setPair (s : State) (r : Nat) (x : Pair) : State :=
  { s with pairs := storePut (fun _ => Pair.reset) s.pairs r x }
def State.obj (s : State) (o : Nat) : W32 := storeGet (fun _ => 0) s.objs o
def State.setObj (s : State) (o : Nat) (v : W32) : State := { s with objs := storePut (fun _ => 0) s.objs o v }

/-- The code of a context state (R168). -/
def CtxState.code : CtxState → Nat
  | .idle => 0
  | .armed => 1
  | .running => 2
  | .paused => 3
  | .halted => 4
  | .done => 5

/-- The code of a PCC state (R232). -/
def PccState.code : PccState → Nat
  | .idle => 0
  | .issuing => 1
  | .waiting => 2
  | .stepEnd => 3
  | .stopped => 4
  | .timedOut => 5
  | .collOut => 5

/-- The code of a pair state (R534). -/
def PairState.code : PairState → Nat
  | .disabled => 0
  | .active => 1
  | .stopped => 2
  | .detached => 3

/-- The context that owns plain `p` (R161). -/
def State.owner (s : State) (p : Nat) : Option Nat :=
  let w := s.reg (0x59000 + 4 * p)
  if bit w 31 then some (bits w 3 0) else none

/-- The plains of context `m`, in ascending number (R160, R161). -/
def State.plainsOf (s : State) (m : Nat) : List Nat := (List.range 16).filter fun p => s.owner p = some m

/-- Whether object `o` lies in a run register (R239). -/
def inRun (w : W32) (o : Nat) : Bool := bit w 31 && bits w 13 0 ≤ o && o ≤ bits w 29 16

/-- Whether context `m` owns object `o` (R184). -/
def State.ownsObj (s : State) (m o : Nat) : Bool :=
  if o < 4096 then inRun (s.reg (0x50104 + 8 * m)) o else inRun (s.reg (0x50100 + 8 * m)) o

/-- An addition to a sync object (R199). -/
def State.addObj (s : State) (o n : Nat) : State := s.setObj o (s.obj o + BitVec.ofNat 32 n)

/-! ### The event log (R605 to R610) -/

/-- An entry appended to the event log (R605): kind, context, code, source class and index, and the detail words. -/
def State.logAdd (s : State) (kind : Nat) (ctx : Option Nat) (code cls idx d5 d6 d7 : Nat) : State :=
  let w3 := kind * 2 ^ 24 + (match ctx with | some m => m % 16 * 2 ^ 20 + 2 ^ 19 | none => 0) + code % 2 ^ 16
  let seq := s.logHead
  let e : Words := [s.time.setWidth 32, (s.time >>> 32).setWidth 32, seq, BitVec.ofNat 32 w3,
    BitVec.ofNat 32 (cls * 2 ^ 28 + idx % 2 ^ 16), BitVec.ofNat 32 d5, BitVec.ofNat 32 d6, BitVec.ofNat 32 d7]
  let s := { s with log := (e :: s.log).take 16384, logHead := seq + 1 }
  match ctx with
  | some m => s.setReg (0xC8100 + 4 * m) (seq + 1)
  | none => s

/-- The kinds of R606. -/
def logFault := 0x01
def logDiscard := 0x02
def logMisaligned := 0x03
def logRemoteDrop := 0x04
def logCtxState := 0x05
def logCheckpoint := 0x06
def logMargin := 0x07
def logEcc := 0x08
def logWatershed := 0x09
def logSecurity := 0x0A
def logLink := 0x0B
def logHost := 0x0C
def logManagement := 0x0D

/-- A discarded register access recorded (R8, R492, R606). -/
def State.discard (s : State) (v off : Nat) (value : W32) : State :=
  s.logAdd logDiscard (if v < 16 then some v else none) 0 0 0 off value.toNat v

/-- A global counter increased; it stops at its largest value (R600). -/
def State.addGlb (s : State) (k n : Nat) : State := { s with glb := s.glb.set k (min (2 ^ 64 - 1) (s.glb.getD k 0 + n)) }

/-- Cycles that no rule fixes added to global counters: free values (R600). -/
def State.addCycles (s : State) (ks : List Nat) : State :=
  ks.foldl (fun s k => { s.addGlb k (Config.freeWord s.free).toNat with free := s.free + 1 }) s

/-- The phase of bring-up (R628), and whether the device is READY. -/
def State.phase (s : State) : Nat := bits (s.reg 0xB0000) 31 29
def State.ready (s : State) : Bool := s.phase = 5

/-- A word of configuration space. -/
def State.cfg (s : State) (off : Nat) : W32 := storeGet pciDefault s.pci off
def State.setCfg (s : State) (off : Nat) (v : W32) : State := { s with pci := storePut pciDefault s.pci off v }

/-- Whether the function is in D0; in D3hot it makes no request (R487). -/
def State.inD0 (s : State) : Bool := bits (s.cfg 0x44) 1 0 ≠ 3

/-- Whether the function answers memory requests of the host: memory space is enabled, and it is in D0 (R487, R523, log entry 134). -/
def State.memOn (s : State) : Bool := bit (s.cfg 4) 1 && s.inD0

/-- Whether a requester reaches the register map: the management core always, the host where its BARs answer (R523). -/
def State.reaches (s : State) (v : Nat) : Bool := v = 17 || s.memOn

/-- A register write by a requester that may make it: before READY it is discarded and logged (R631), and so it is where `ok` does not hold (R492).
Where the host's BARs do not answer it does not arrive (R523). -/
def State.regGate (s : State) (ok : Bool) (v off : Nat) (value : W32) (f : State → State) : State :=
  if ! s.reaches v then s else if s.ready && ok then f s else s.discard v off value

/-- Whether MSI-X is enabled; whether a vector is masked (R487, R491). -/
def State.msixOn (s : State) : Bool := bit (s.cfg 0x70) 31
def State.msixMasked (s : State) (v : Nat) : Bool := bit (s.cfg 0x70) 30 || bit (s.reg (0xE000C + 0x10 * v)) 0

/-- A vector is signalled: its message is sent, or becomes pending while it is masked (R487, R511). -/
def State.sendMsix (s : State) (v : Nat) : State :=
  if ! s.msixOn then s
  else if s.msixMasked v then s.setReg 0xE8000 (s.reg 0xE8000 ||| BitVec.ofNat 32 (2 ^ v))
  else { s with hostTx := s.hostTx ++ [.msix v] }

/-- Pending vectors that are no longer masked are sent. -/
def State.unmaskMsix (s : State) : State :=
  (List.range 18).foldl (fun s v =>
    if s.msixOn && bit (s.reg 0xE8000) v && ! s.msixMasked v then (s.setReg 0xE8000 (s.reg 0xE8000 &&& ~~~(BitVec.ofNat 32 (2 ^ v)))).sendMsix v else s) s

/-! ### Completions (R509 to R512) -/

/-- CQ_LOG2 and SQ_LOG2 of a pair, values below 4 taken as 4 (R534). -/
def State.cqLog (s : State) (r : Nat) : Nat := max 4 (bits (s.reg (offHif r 0x18)) 11 8)
def State.sqLog (s : State) (r : Nat) : Nat := max 4 (bits (s.reg (offHif r 0x18)) 3 0)

/-- Whether the pair may post (R487, R502, R511, R512). -/
def State.canPost (s : State) (r : Nat) : Bool :=
  let p := s.pair r
  s.inD0 && (p.st = .active || p.st = .stopped) && (p.cqTail - p.cqHead).toNat < 2 ^ s.cqLog r

/-- An entry written to the completion ring: words 1 to 15 first, word 0 in a write of its own, then the interrupt (R499, R511). -/
def State.postNow (s : State) (r : Nat) (ws : Words) : State :=
  let p := s.pair r
  let l := s.cqLog r
  let k := p.cqTail.toNat
  let addr := s.pairVal (offHif r 0x08) + 64 * (k % 2 ^ l)
  let w0 := k % 2 ^ 16 * 2 ^ 16 + (k / 2 ^ l + 1) % 2 * 2 ^ 15 + (wordAt ws 0).toNat % 256
  let cfg := s.reg (offHif r 0x18)
  let due := match p.irqAt with
    | none => true
    | some t => t.toNat + bits cfg 30 16 * 1000 ≤ s.time.toNat
  let irq := bit cfg 31
  let s := { s with hostTx := s.hostTx ++ [HostOut.write (addr + 4) (bytesOf (ws.drop 1)) false, HostOut.write addr (leBytes 4 w0) false] }
  let s := if irq && due then s.sendMsix r else s
  s.setPair r { p with cqTail := p.cqTail + 1, irq := if irq && due then false else p.irq || irq,
                       irqAt := if irq && due then some s.time else p.irqAt }

/-- A completion posted, or placed in the overflow queue, or counted as lost (R512). -/
def State.post (s : State) (r : Nat) (ws : Words) : State :=
  let p := s.pair r
  if p.ovf.isEmpty && p.lost = 0 && s.canPost r then s.postNow r ws
  else if p.ovf.length < 1024 then s.setPair r { p with ovf := p.ovf ++ [ws] }
  else s.setPair r { p with lost := if p.lost = 0xFFFF#16 then p.lost else p.lost + 1 }

/-- The 16 words of a completion (R509). -/
def cplWords (s : State) (kind : Nat) (cmdId : W32) (status ctx plain : Nat) (tag step : W32) (lost : Nat)
    (detail : Words) : Words :=
  [BitVec.ofNat 32 kind, cmdId, BitVec.ofNat 32 status, BitVec.ofNat 32 (ctx % 16 * 2 ^ 16 + plain % 16), tag, step,
   s.time.setWidth 32, (s.time >>> 32).setWidth 32, BitVec.ofNat 32 lost] ++
  (List.range 7).map fun i => wordAt detail i

/-- The completion of an event of context `m`, on its pair (R510). -/
def State.event (s : State) (kind m status plain : Nat) (tag : W32) (detail : Words := []) : State :=
  s.post m (cplWords s kind 0 status m plain tag (s.ctx m).step 0 detail)

/-- Whether the pair reads the entry at SQ_HEAD (R501 to R503). -/
def State.readsEntry (s : State) (r : Nat) : Bool :=
  let x := s.pair r
  s.inD0 && x.st = .active && x.cur = none && x.sqTail ≠ x.sqHead

/-- The entry at SQ_HEAD is read where it is due (R494, R499, R501). -/
def State.fetchEntry (s : State) (r : Nat) : State :=
  if s.readsEntry r then
    { s with hostTx := s.hostTx ++ [.read (s.pairVal (offHif r 0) + 64 * ((s.pair r).sqHead.toNat % 2 ^ s.sqLog r)) 64] }
  else s

/-- A ring command of pair `r` completes (R501, R510): CMD_DONE is queued and SQ_HEAD goes on, unless the pair was disabled or lost since it
started; the next entry is read. -/
def State.complete (s : State) (r status : Nat) (detail : Words := []) : State :=
  let p := s.pair r
  match p.cur with
  | none => s
  | some e =>
    let m := if r < 16 then r else 0
    let s := s.setPair r { p with cur := none, old := false, copied := none, sqHead := if p.old then p.sqHead else p.sqHead + 1 }
    (s.post r (cplWords s 0x01 (wordAt e 1) status m 0 0 (if r < 16 then (s.ctx m).step else 0) 0 detail)).fetchEntry r

/-- Vector 17 is signalled: not while the admin pair is DETACHED or the link is down (R522). -/
def State.adminMsix (s : State) : State :=
  if (s.pair 16).st = .detached || ! bit (s.reg 0x10004) 31 then s else s.sendMsix 17

/-- An event of the device, on the admin pair with vector 17 (R511, R617). -/
def State.adminEvent (s : State) (kind status : Nat) (detail : Words) : State :=
  (s.post 16 (cplWords s kind 0 status 0 0 0 0 0 detail)).adminMsix

/-! ### Device memory (R378 to R401) -/

/-- The size of the DDR5 tier. -/
def State.ddrBytes (s : State) : Nat := s.pairVal 0x20004

/-- Whether the `n` bytes from `a` on lie in one mapped range (R378). -/
def State.mapped (s : State) (a n : Nat) : Bool :=
  a + n ≤ 480000000000 || (0x8000000000 ≤ a && a + n ≤ 0x8000000000 + 480000000000) ||
  (ddrBase ≤ a && a + n ≤ ddrBase + s.ddrBytes)

/-- The range of region `n`; a region that covers nothing is empty (R385). -/
def State.rgnBase (s : State) (n : Nat) : Nat := s.pairVal (offRgn n 0)
def State.rgnSize (s : State) (n : Nat) : Nat := (s.reg (offRgn n 8)).toNat * 2097152

/-- Whether region `n` is enabled and covers the bytes. -/
def State.rgnCovers (s : State) (n a len : Nat) : Bool :=
  bit (s.reg (offRgn n 0xC)) 31 && s.rgnBase n ≤ a && a + len ≤ s.rgnBase n + s.rgnSize n && s.rgnSize n ≠ 0

/-- Whether an enabled region of context `m` covers the request at `a` and grants the access (R386); a region holds a granule of 2 KiB whole or not at all. -/
def State.granted (s : State) (m a : Nat) (write : Bool) : Bool :=
  (List.range 64).any fun n =>
    let c := s.reg (offRgn n 0xC)
    s.rgnCovers n a 1 && bits c 19 16 = m && bit c (if write then 1 else 0)

/-- Whether a DDR5 channel has failed (R397). -/
def State.ddrFailed (s : State) : Bool := (List.range 8).any fun c => bit (s.reg (0x38000 + 0x40 * c)) 29

/-- The codes a memory request can stop with (R427). -/
def memRange : Nat := 0x0401
def memUncorr : Nat := 0x0402
def ddrChannelFail : Nat := 0x0702

/-- Why one of the requests that move `len` bytes is refused before it moves anything: no region (R386), no mapped address (R379), a
failed tier (R397). The context is none for a requester outside the region table. -/
def State.refused (s : State) (m : Option Nat) (a len : Nat) (write : Bool) : Option Nat :=
  (requestsOf a len).findSome? fun x =>
    let ok := match m with
      | some c => s.granted c x write
      | none => true
    if ! (s.mapped x 1 && ok) then some memRange
    else if ddrBase ≤ x && s.ddrFailed then some ddrChannelFail
    else none

/-- What a byte of device memory that nothing has written reads as (log entry 3). -/
def memDefault (_ : Nat) : Byte := 0

/-- The canonical form of device memory. -/
abbrev Memory.wf (m : Store Byte) : Prop := storeWf memDefault m

/-- A masked byte over an older one. -/
def maskByte (old v mask : Byte) : Byte := (old &&& ~~~mask) ||| (v &&& mask)

/-- A byte of a store of bytes replaced under a mask. -/
def putMasked (st : Store Byte) : List (Nat × Byte × Byte) → Store Byte
  | [] => st
  | (a, v, k) :: r => putMasked (storePut memDefault st a (maskByte (storeGet memDefault st a) v k)) r

/-- A byte as its home slice holds it, without the writes that copy-on-write holds back; a free value where the tier has lost it (R398). -/
def State.cell (s : State) (a : Nat) : Byte :=
  match s.ddrLost with
  | some k => if ddrBase ≤ a then Config.lostByte k a else storeGet memDefault s.mem a
  | none => storeGet memDefault s.mem a

/-- A byte as a requester reads it: the writes held back by copy-on-write lie over it (R384, R425). -/
def State.byte (s : State) (a : Nat) : Byte :=
  s.cow.waiting.foldl (fun b w => w.bytes.foldl (fun b x => if x.1 = a then maskByte b x.2.1 x.2.2 else b) b) (s.cell a)

/-- The `n` bytes from `a` on. -/
def State.read (s : State) (a n : Nat) : Bytes := (List.range n).map fun i => s.byte (a + i)
def State.readCells (s : State) (a n : Nat) : Bytes := (List.range n).map fun i => s.cell (a + i)

/-- The page of an address in the page table (R421). -/
def pageOf (a : Nat) : Nat := if a < 0x10000000000 then a / 65536 else 16777216 + (a - ddrBase) / 65536

/-- The address of a page (R421). -/
def pageAddr (p : Nat) : Nat := if p < 16777216 then p * 65536 else ddrBase + (p - 16777216) * 65536

/-- The region that marks an address: the lowest-numbered enabled one that covers it (R387). -/
def State.marking (s : State) (a : Nat) : Option Nat := (List.range 64).find? fun n => s.rgnCovers n a 1

/-- Whether copy-on-write is active, and its context (R422). -/
def State.cowActive (s : State) : Bool := bit (s.reg 0x20020) 0
def State.cowCtx (s : State) : Nat := bits (s.reg 0x20020) 7 4

/-- Whether a page is live for the tracked context (R421). -/
def State.livePage (s : State) (p : Nat) : Bool :=
  match s.marking (pageAddr p) with
  | none => false
  | some n => let c := s.reg (offRgn n 0xC); bit c 2 && bits c 19 16 = s.cowCtx

/-- The page-table entry of a page (R421). -/
def State.pageEntry (s : State) (p : Nat) : Nat := leNat (s.readCells (s.pairVal 0x20028 + 4 * p) 4)

/-- Whether a write to a page must wait for its copy (R423). -/
def State.mustCopy (s : State) (p : Nat) : Bool :=
  s.cowActive && s.livePage p && s.pageEntry p ≠ (s.reg 0x20024).toNat

/-- Whether every bit of a line is written (R401). -/
def coversLine (bs : List (Nat × Byte × Byte)) (l : Nat) : Bool :=
  (List.range 64).all fun i => bs.foldl (fun k b => if b.1 = 64 * l + i then k ||| b.2.2 else k) 0#8 = 0xFF#8

/-- Whether a line is poisoned as a requester reads it: the writes held back by copy-on-write lie over it (R384, R401, R425). -/
def State.linePoison (s : State) (l : Nat) : Bool :=
  s.cow.waiting.foldl (fun b w => if w.bad.contains l then true else b && ! coversLine w.bytes l) (storeGet (fun _ => false) s.poison l)

/-- Whether a line that holds one of the bytes is poisoned (R401), for a requester and as its home slice holds it. -/
def State.poisoned (s : State) (a len : Nat) : Bool :=
  len ≠ 0 && (s.poison.map (fun e => e.1) ++ s.cow.waiting.flatMap fun w => w.bad).any fun l =>
    a / 64 ≤ l && l ≤ (a + len - 1) / 64 && s.linePoison l
def State.cellPoisoned (s : State) (a len : Nat) : Bool :=
  len ≠ 0 && s.poison.any fun e => a / 64 ≤ e.1 && e.1 ≤ (a + len - 1) / 64

/-- On whose behalf the requests of a writer pass through the MSC, and whether they are served as BYPASS (R407, R408, R412, R604). -/
def State.mscPort (s : State) : Writer → Option Nat × Bool
  | .cmd p id => (s.owner p, (s.plain p).jobs.any fun j => j.id = id && ! j.coll && bit (wordAt j.words 4) 23)
  | .trace m => (some m, true)
  | .pair r => (if r < 16 then some r else none, false)
  | .ack _ m => (m, false)
  | .host => (none, false)
  | .other => (none, false)

/-- The MSC policy of an address: that of the lowest-numbered enabled region that covers it (R387); STREAM outside the region table (R407). -/
def State.mscPolicy (s : State) (a : Nat) : Nat :=
  match s.marking a with
  | some n => bits (s.reg (offRgn n 0xC)) 5 4
  | none => 1

/-- The requests of a writer served by their home slices (R406 to R408). -/
def State.mscServe (s : State) (who : Writer) (write : Bool) (reqs : List (Nat × Nat)) : Msc :=
  let m := (s.mscPort who).1
  let nb := (s.mscPort who).2
  let mask := bits (s.reg (match m with | some c => 0x28440 + 4 * c | none => 0x28400)) 15 0
  reqs.foldl (fun x q => x.request (if nb then 2 else if m = none then 1 else s.mscPolicy (q.1 * 2048)) mask write q.1 q.2) s.msc

/-- Runs of bytes read from device memory pass through the MSC (R28). -/
def State.mscRead (s : State) (who : Writer) (runs : List (Nat × Nat)) : State :=
  { s with msc := s.mscServe who false (lineRequests runs) }

/-- Bytes applied at their home slices (R383): a line written whole loses its poison (R401), the lines of `bad` become poisoned (R403). -/
def State.apply (s : State) (who : Writer) (bs : List (Nat × Byte × Byte)) (bad : List Nat) : State :=
  { s with mem := putMasked s.mem bs,
           poison := bad.foldl (fun st l => storePut (fun _ => false) st l true)
             (s.poison.filter fun e => ! coversLine bs e.1),
           msc := s.mscServe who true (lineRequests (bs.map fun b => (b.1, 1))) }

/-- The pages of a list of masked bytes, each once. -/
def pagesOf (bs : List (Nat × Byte × Byte)) (bad : List Nat) : List Nat :=
  (bs.map (fun b => pageOf b.1) ++ bad.map fun l => pageOf (64 * l)).eraseDups

/-- A write from any requester (R423): what reaches a page that must first be copied, or that has writes waiting, waits; the rest is applied. -/
def State.write (s : State) (who : Writer) (bs : List (Nat × Byte × Byte)) (bad : List Nat := []) : State :=
  if s.cowActive then
    let held := (pagesOf bs bad).filter fun p => s.mustCopy p || s.cow.waiting.any fun w => w.page = p
    let s' := s.apply who (bs.filter fun b => ! held.contains (pageOf b.1)) (bad.filter fun l => ! held.contains (pageOf (64 * l)))
    { s' with cow := { s'.cow with waiting := s'.cow.waiting ++ held.map fun p =>
        (⟨p, who, bs.filter fun b => pageOf b.1 = p, bad.filter fun l => pageOf (64 * l) = p, false⟩ : CowWrite) } }
  else s.apply who bs bad

/-- Whole bytes from an address on, as masked bytes. -/
def wholeBytes (a : Nat) : Bytes → List (Nat × Byte × Byte)
  | [] => []
  | b :: r => (a, b, 0xFF#8) :: wholeBytes (a + 1) r

/-- Whether writes of a command are still held back (R123, R425). -/
def State.writesWait (s : State) (plain id : Nat) : Bool :=
  s.cow.waiting.any fun w => w.owner = .cmd plain id

/-! ### Packets (R437 to R457, R704) -/

/-- The device ID, and whether it is valid (R480). -/
def State.devId (s : State) : Nat := bits (s.reg 0x70004) 11 0
def State.devValid (s : State) : Bool := bit (s.reg 0x70004) 31

/-- LNK_TOPO.DIRECT (R480). -/
def State.direct (s : State) : Bool := bit (s.reg 0x70008) 0

/-- The state code of a link (R484): 0 DOWN, 1 TRAINING, 2 UP, 3 FAILED. -/
def State.linkState (s : State) (n : Nat) : Nat := bits (s.reg (offLnk n 0)) 31 30

/-- A link enters a state, with its LINK entry (R606). -/
def State.setLinkState (s : State) (n st : Nat) : State :=
  let old := s.linkState n
  let s := s.setBits (offLnk n 0) 0xC0000000#32 (BitVec.ofNat 32 (st * 2 ^ 30))
  if old = st then s else s.logAdd logLink none 0 3 n n old st

def State.link (s : State) (n : Nat) : Link := storeGet (fun _ => Link.reset) s.links n
def State.setLink (s : State) (n : Nat) (l : Link) : State := { s with links := storePut (fun _ => Link.reset) s.links n l }

/-- The route entry of a device (R456). -/
def State.route (s : State) (d : Nat) : W32 := storeGet zeroWord s.routes d

/-- The UP links of the cols a route entry names (R456). -/
def State.upLinks (s : State) (d : Nat) : List Nat :=
  (List.range 64).filter fun n => bit (s.route d) 31 && bit (s.route d) (n / 4) && s.linkState n = 2

/-- Whether a destination can be reached: a valid entry that names a col with an UP link (R189, R420, R472). -/
def State.reachable (s : State) (d : Nat) : Bool := bit (s.route d) 31 && ! (s.upLinks d).isEmpty

/-- The buffer of a receiver, in units (R444). -/
def State.bufUnits (s : State) (vc : Nat) : Nat :=
  let b := if vc = 0 then 512 else 4096
  if s.direct then b / 2 else b

/-- The credits a link holds for a VC and class (R445). -/
def State.credits (s : State) (n vc cls : Nat) : Nat :=
  let l := s.link n
  let i := vc * 2 + cls
  (BitVec.ofNat 16 (s.bufUnits vc) + l.cred.getD i 0 - l.sent.getD i 0).toNat

/-- The class a packet takes on a link (R455): `from` is the link it arrived on. -/
def State.classOn (s : State) (k : Packet) (arrived : Option Nat) (n : Nat) : Nat :=
  let cfg := s.reg (0x70100 + 8 * (n / 4))
  if ! s.direct then 0
  else if bit cfg 7 then 1
  else match arrived with
    | none => 0
    | some a => if bits (s.reg (0x70100 + 8 * (a / 4))) 2 0 = bits cfg 2 0 then k.cls else 0

/-- Units of the flit that a link is filling (R439). -/
def Link.curUnits (l : Link) : Nat := (l.cur.map fun x => x.count).sum

/-- The link a packet can go out on now (R445, R447, R456): among the UP links of its route with credits for every unit and room in the
replay buffer, the one with the most credits, the lowest number on a tie. A device whose ID is not valid sends none (R480). -/
def State.chooseLink (s : State) (k : Packet) (arrived : Option Nat) : Option Nat :=
  let ok := (s.upLinks k.dst).filter fun n =>
    let l := s.link n
    s.devValid && k.units ≤ s.credits n k.vc (s.classOn k arrived n) && (l.txNext - l.acked).toNat + ceilDiv (l.curUnits + k.units) 64 ≤ 129
  ok.foldl (fun best n => match best with
    | none => some n
    | some b => if s.credits n k.vc (s.classOn k arrived n) > s.credits b k.vc (s.classOn k arrived b) then some n else some b) none

/-- The first `m` units of a list of pieces, and the rest (R439). -/
def takeUnits : Nat → List Piece → List Piece × List Piece
  | _, [] => ([], [])
  | m, p :: r =>
    if p.count ≤ m then ((p :: (takeUnits (m - p.count) r).1), (takeUnits (m - p.count) r).2)
    else if m = 0 then ([], p :: r)
    else ([{ p with count := m }], { p with first := p.first + m, count := p.count - m } :: r)

/-- The buffer whose credit update the next flit carries: the rotation over those whose count has changed since it was reported (R446). -/
def Link.creditTurn (l : Link) : Nat :=
  (((List.range 8).map fun i => (l.turn + 1 + i) % 8).find? fun i => l.freed.getD i 0 ≠ l.told.getD i 0).getD (l.turn % 8)

/-- The control word of the next flit of a link (R438). -/
def Link.control (l : Link) : W64 :=
  let i := l.creditTurn
  let w := l.txNext.toNat * 2 ^ 52 + l.rxLast.toNat * 2 ^ 40 + b2n l.nak * 2 ^ 39 + i % 2 * 2 ^ 38 + i / 2 * 2 ^ 36 + (l.freed.getD i 0).toNat * 2 ^ 20
  BitVec.ofNat 64 (w + ccrc (BitVec.ofNat 64 w))

/-- The flit being filled is sent and kept until it is acknowledged (R437, R447). -/
def Link.cut (l : Link) : Link :=
  let f : Flit := ⟨l.control, (takeUnits 64 l.cur).1⟩
  { l with txNext := l.txNext + 1, nak := false, turn := l.creditTurn, told := l.told.set l.creditTurn (l.freed.getD l.creditTurn 0),
           cur := (takeUnits 64 l.cur).2, kept := l.kept ++ [f], out := l.out ++ [f] }

/-- Flits that are full are sent; a packet fills at most two (R439). -/
def Link.cutFull (l : Link) : Link :=
  if l.curUnits < 64 then l else if l.cut.curUnits < 64 then l.cut else l.cut.cut

/-- A packet takes the next units of a link's flits (R439, R445); a flit leaves when it is full, or at the next flit time (log entry 8). -/
def Link.take (l : Link) (k : Packet) (cls : Nat) : Link :=
  let i := k.vc * 2 + cls
  Link.cutFull { l with sent := l.sent.set i (l.sent.getD i 0 + BitVec.ofNat 16 k.units), cur := l.cur ++ [⟨k, 0, k.units⟩],
                        txBytes := if k.vc = 0 then l.txBytes else l.txBytes + 32 + k.data.length, vc0 := l.vc0 || k.vc = 0 }

/-- The FSEQ of the flit that carries the last unit a link has taken. -/
def Link.lastSeq (l : Link) : BitVec 12 := if l.cur = [] then l.txNext - 1 else l.txNext

/-- A packet put on a link: sealed by the device that makes it, passed on by one that forwards it (R440, R457). -/
def State.putOn (s : State) (n : Nat) (k : Packet) (arrived : Option Nat) : State :=
  let cls := s.classOn k arrived n
  let k' := if arrived = none then k.sealed cls else k.reclass cls
  { s.setLink n ((s.link n).take k' cls) with linkTx := s.linkTx ++ [(n, k')] }

/-- A packet that no answer settles: sent, or kept until a link takes it. -/
def State.sendFree (s : State) (k : Packet) (arrived : Option Nat := none) : State :=
  match s.chooseLink k arrived with
  | some n => s.putOn n k arrived
  | none => { s with txWait := s.txWait ++ [(k, arrived)] }

/-- A packet that its sender holds until it is settled (R704). -/
def State.sendHeld (s : State) (k : Packet) (owner : PkOwner) (fails : Nat := 0) : State :=
  match s.chooseLink k none with
  | some n =>
    let s := s.putOn n k none
    { s with outst := s.outst ++ [⟨k, some (n, (s.link n).lastSeq), fails, owner⟩] }
  | none => { s with outst := s.outst ++ [⟨k, none, fails, owner⟩] }

/-- The header words of a packet this device makes (R440). -/
def State.mkPacket (s : State) (ptype vc dst runTag epoch : Nat) (evseq : W32) (w3 : Nat) (addr w6 : Nat) (data : Bytes) : Packet :=
  ⟨[BitVec.ofNat 32 (ptype * 2 ^ 28 + vc * 2 ^ 26 + dst % 4096 * 2 ^ 12 + s.devId), BitVec.ofNat 32 (runTag * 2 ^ 16 + epoch), evseq,
    BitVec.ofNat 32 w3, BitVec.ofNat 32 addr, BitVec.ofNat 32 (addr / 2 ^ 32), BitVec.ofNat 32 w6, 0], data⟩

/-- The next REQ_ID and the state that has used it (log entry 6). -/
def State.takeReq (s : State) : Nat × State := (s.reqNext.toNat, { s with reqNext := s.reqNext + 1 })

/-- The devices a stop is sent to (R620): range 0, then range 1, without the device itself. -/
def State.fanout (s : State) : List Nat :=
  ([0, 1].flatMap fun i =>
    let w := s.reg (0x98008 + 4 * i)
    if bit w 15 then (List.range (bits w 27 16 + 1)).map fun j => (bits w 11 0 + j) % 4096 else []).filter fun d => d ≠ s.devId

/-- The STOP packets of a stop (R620): each with the RUN_TAG and the layout epoch of the lowest-numbered context that is not IDLE (R440). -/
def State.sendStops (s : State) : State :=
  if ! s.devValid then s
  else
    let tags := match (List.range 16).find? fun m => (s.ctx m).st ≠ .idle with
      | some m => ((s.ctx m).runTag.toNat, (s.ctx m).epoch.toNat)
      | none => (0, 0)
    s.fanout.foldl (fun s d => s.sendFree (s.mkPacket 8 0 d tags.1 tags.2 0 0 0 0 [])) s

/-! ### Answers that wait for writes, and copy-on-write -/

/-- A word of a queue pair's entry (R537), and its port. -/
def State.qpWord (s : State) (q i : Nat) : W32 := wordAt (storeGet (fun _ => []) s.qps q) i
def State.qpPort (s : State) (q : Nat) : Nat := bits (s.qpWord q 0) 25 25

/-- Frames counted on an Ethernet port (R538): `k` is the place of the counter. -/
def State.ethCount (s : State) (port k n : Nat) : State := s.bump (0x80400 + 0x40 * port + 4 * k) n

/-- Whether a port is enabled and its link is up (R536). -/
def State.portUp (s : State) (port : Nat) : Bool := bit (s.reg (0x80010 + 0x20 * port)) 0 && bit (s.reg (0x80014 + 0x20 * port)) 31

/-- Frames handed to a port (R524, R538): those of a paused priority wait, and a port that is not up sends none (log entry 147). -/
def State.portSend (s : State) (port prio : Nat) (o : EthOut) (frames : Nat) : State :=
  if ! s.portUp port then s
  else if (storeGet zeroNat s.pfc port).testBit prio then { s with ethWait := s.ethWait ++ [(port, prio, o, frames)] }
  else { s with ethTx := s.ethTx ++ [o] }.ethCount port 1 frames

/-- The priority of a queue pair's frames: PCP of their tag, 0 without one (R537, log entry 147). -/
def State.qpPrio (s : State) (q : Nat) : Nat := if bit (s.qpWord q 5) 31 then bits (s.qpWord q 5) 30 28 else 0

/-- Frames of a queue pair leave (R525, R538). -/
def State.ethSend (s : State) (q : Nat) (o : EthOut) (frames : Nat) : State := s.portSend (s.qpPort q) (s.qpPrio q) o frames

/-- Frames of priorities that are paused no longer leave, in their order (R524). -/
def State.unpause (s : State) (port : Nat) : State :=
  let go := fun (x : Nat × Nat × EthOut × Nat) => x.1 = port && ! (storeGet zeroNat s.pfc port).testBit x.2.1
  (s.ethWait.filter go).foldl (fun s x => s.portSend x.1 x.2.1 x.2.2.1 x.2.2.2) { s with ethWait := s.ethWait.filter fun x => ! go x }

/-- An answer leaves. -/
def State.sendAck (s : State) : Ack → State
  | .link k _ => s.sendFree k
  | .eth q o _ => s.ethSend q o 1

/-- Bytes read from `a` on, with free values for those of poisoned lines (log entry 33); `bad` says which bytes lie in such a line. -/
def State.freePoison (s : State) (a : Nat) (bs : Bytes) (bad : Nat → Nat → Bool) : Bytes × State :=
  if bad a bs.length then
    (bs.mapIdx fun i b => if bad (a + i) 1 then (Config.freeWord (s.free + i)).setWidth 8 else b, { s with free := s.free + bs.length })
  else (bs, s)

/-- What the home slices hold, without the writes that copy-on-write holds back. -/
def State.drainBytes (s : State) (a n : Nat) : Bytes × State := s.freePoison a (s.readCells a n) s.cellPoisoned

/-- The poisoned lines among `n` bytes from `a` on, by their number from the line of `a`. -/
def State.poisonLines (s : State) (a n : Nat) : List Nat :=
  (List.range ((a + n - 1) / 64 + 1 - a / 64)).filter fun i => s.poisoned (a / 64 * 64 + 64 * i) 1

/-- Free values for `n` bytes. -/
def State.freeBytes (s : State) (n : Nat) : Bytes × State :=
  ((List.range n).map fun i => (Config.freeWord (s.free + i)).setWidth 8, { s with free := s.free + n })

/-- A read of the window answered, poisoned lines as poisoned (R514, R518). -/
def State.answerRead (s : State) (x : Nat × WinSrc × Nat) : State :=
  match x.2.1 with
  | .zero => { s with hostTx := s.hostTx ++ [.winData x.1 (List.replicate x.2.2 0) []] }
  | .lost =>
    let (bs, s') := s.freeBytes x.2.2
    { s' with hostTx := s'.hostTx ++ [.winData x.1 bs []] }
  | .mem a =>
    let (bs, s') := s.freePoison a (s.read a x.2.2) s.poisoned
    { s'.mscRead .host [(a, x.2.2)] with hostTx := s'.hostTx ++ [.winData x.1 bs (s.poisonLines a x.2.2)] }

/-- Reads of the window whose earlier host writes have been applied are answered (R514). -/
def State.answerWin (s : State) : State :=
  if s.cow.waiting.any fun w => w.owner = .host then s
  else s.win.reads.foldl (fun s x => s.answerRead x) { s with win := { s.win with reads := [] } }

/-- Whether a write that an answer speaks of is held back. -/
def State.ackHeld (s : State) (n : Nat) : Bool :=
  s.cow.waiting.any fun w => match w.owner with
    | .ack k _ => k = n
    | _ => false

/-- Answers whose writes have been applied go out (R442, R528). -/
def State.settleAcks (s : State) : State :=
  let held := s.ackHeld
  let out := s.acks.filter fun a => ! held a.1
  State.answerWin (out.foldl (fun s a => s.sendAck a.2) { s with acks := s.acks.filter fun a => held a.1 })

/-- A write with an answer that goes out once it is applied; `m` is the context whose region admits it. -/
def State.writeAck (s : State) (bs : List (Nat × Byte × Byte)) (bad : List Nat) (a : Ack) (m : Option Nat) : State :=
  let n := s.ackNext
  let s := ({ s with ackNext := n + 1, acks := s.acks ++ [(n, a)] }).write (.ack n m) bs bad
  s.settleAcks

/-- The writes held back on a page applied in their order (R423). -/
def State.releasePage (s : State) (page : Nat) : State :=
  let ws := s.cow.waiting.filter fun w => w.page = page
  let s := { s with cow := { s.cow with waiting := s.cow.waiting.filter fun w => w.page ≠ page } }
  (ws.foldl (fun s w => s.apply w.owner w.bytes w.bad) s).settleAcks

/-- The page-table entry of a page set to the epoch in force (R423, R553). -/
def State.markPage (s : State) (page : Nat) : State :=
  s.apply .other (wholeBytes (s.pairVal 0x20028 + 4 * page) (leBytes 4 (s.reg 0x20024).toNat)) []

/-- Tracking ends: ACTIVE is cleared, every pool page is free, and no write waits any longer (R426). -/
def State.cowEnd (s : State) : State :=
  let s := s.setBits 0x20020 1 0
  let s := { s with cow := { s.cow with pool := [] } }
  (s.cow.waiting.map fun w => w.page).eraseDups.foldl (fun s p => s.releasePage p) s

/-! ### Field, accumulator and Basin (R95 to R103) -/

/-- The bytes of a core's Field. -/
def State.fieldRead (s : State) (c off n : Nat) : Bytes := (List.range n).map fun i => storeGet zeroByte s.field (c * 2 ^ 23 + off + i)

/-- Masked bytes written to a core's Field. -/
def State.fieldWrite (s : State) (c : Nat) (bs : List (Nat × Byte × Byte)) : State :=
  { s with field := putMasked s.field (bs.map fun b => (c * 2 ^ 23 + b.1, b.2.1, b.2.2)) }

/-- An FP32 word of Field. -/
def State.fieldWord (s : State) (c off : Nat) : W32 := BitVec.ofNat 32 (leNat (s.fieldRead c off 4))

/-- An element of a tile: `basin` chooses the memory. -/
def State.tileElem (s : State) (basin : Bool) (c t e : Nat) : W32 :=
  if basin then storeGet zeroWord s.basin ((c * 256 + t) * 4096 + e) else storeGet zeroWord s.acc ((c * 32 + t) * 4096 + e)

/-- A whole tile replaced. -/
def State.setTile (s : State) (basin : Bool) (c t : Nat) (es : Words) : State :=
  if basin then { s with basin := storePutRun zeroWord s.basin ((c * 256 + t) * 4096) es }
  else { s with acc := storePutRun zeroWord s.acc ((c * 32 + t) * 4096) es }

/-- Whether a tile is OPEN (R100). -/
def State.tileOpen (s : State) (basin : Bool) (c t : Nat) : Bool :=
  (storeGet zeroNat (if basin then s.basinOpen else s.accOpen) c).testBit t

/-- The tiles of a run made OPEN or FREE (R101). -/
def State.setOpen (s : State) (basin : Bool) (c base n : Nat) (o : Bool) : State :=
  let m := 2 ^ base * (2 ^ n - 1)
  let old := storeGet zeroNat (if basin then s.basinOpen else s.accOpen) c
  let new := if o then old ||| m else old - (old &&& m)
  if basin then { s with basinOpen := storePut zeroNat s.basinOpen c new }
  else { s with accOpen := storePut zeroNat s.accOpen c new }

/-- The HOLD mask of a tile (R296). -/
def State.hold (s : State) (basin : Bool) (c t : Nat) : Nat :=
  if basin then storeGet zeroNat s.basinHold (c * 256 + t) else storeGet zeroNat s.accHold (c * 32 + t)
def State.setHold (s : State) (basin : Bool) (c t v : Nat) : State :=
  if basin then { s with basinHold := storePut zeroNat s.basinHold (c * 256 + t) v }
  else { s with accHold := storePut zeroNat s.accHold (c * 32 + t) v }

/-! ### Contexts and faults (R168, R201 to R204, R707, R708) -/

/-- CKP_TIER and CKP_ABANDONED (R587). -/
def ckpTier : Nat := 0x1102
def ckpAbandoned : Nat := 0x1108

/-- Whether the checkpoint engine works on a snapshot of the context: it is prepared, or on its way there or from there. -/
def Ckp.draining (k : Ckp) : Bool :=
  match k.phase with
  | .stop => true
  | .drain => true
  | .manifest => true
  | .prepared => true
  | .roots => true
  | _ => false

/-- The checkpoint engine at rest again: what it sent and awaits is forgotten; accesses of the flash controller and of queue pairs run out unheard.
A request that was deferred counts as deferred no longer (R543). -/
def State.ckpRest (s : State) : State :=
  let k := s.ckp
  let live := (s.qpx.map fun e => (e.1, { e.2 with xfers := e.2.xfers.map fun x => if x.pair = none then { x with failed := true } else x }))
  let s := (List.range 16).foldl (fun s m => s.setCtx m { s.ctx m with deferred := false }) s
  { s with ckp := { Ckp.idle with reqs := (k.reqs.filter fun r => r.tier = 1 || r.tier = 3).map fun r => { r with tier := 3 } }, qpx := live,
           outst := s.outst.filter fun o => o.owner ≠ .ckpt }

/-- Bytes of the snapshot area of a context with `n` plains (R550). -/
def areaBytes (n : Nat) : Nat := 65536 + 176226304 * n

/-- CKP_AREA (R588). -/
def State.areaBase (s : State) : Nat := s.pairVal 0x88010

/-- The area of a snapshot abandoned in its stop holds free values (R565). -/
def State.freeArea (s : State) (m : Nat) : State :=
  let n := areaBytes (s.plainsOf m).length
  { s with mem := storePutRun memDefault s.mem s.areaBase ((List.range n).map fun i => (Config.freeWord (s.free + i)).setWidth 8), free := s.free + n }

/-- A drain abandoned (R565 to R567): tracking ends, no root is written; `event` for one that no reset causes. -/
def State.ckpAbandon (s : State) (status : Nat) (event : Bool) : State :=
  let k := s.ckp
  if ! k.draining then s
  else
    let s := (if k.phase = .stop then s.freeArea k.ctx else s).ckpRest.cowEnd
    let step := (wordAt k.hdr 4).toNat
    let s := s.logAdd logCheckpoint (some k.ctx) status 0 0 0x14 step 0
    let s := s.setBits 0x88000 0x10000000#32 0x10000000#32
    let s := if event then s.event 0x14 k.ctx status 0 0 [BitVec.ofNat 32 step] else s
    match k.cmd with
    | some (r, _) => s.complete r status
    | none => s

/-- A context enters a state, with its CTX_STATE entry (R606); a drain whose context leaves RUNNING and PAUSED before the verification record is
read is abandoned (R566). -/
def State.setCtxState (s : State) (m : Nat) (st : CtxState) : State :=
  let c := s.ctx m
  let s := (s.setCtx m { c with st := st }).logAdd logCtxState (some m) 0 0 0 c.st.code st.code c.step.toNat
  if s.ckp.draining && s.ckp.ctx = m && s.ckp.verify = none && st ≠ .running && st ≠ .paused then s.ckpAbandon ckpAbandoned true else s

/-- The stream of a plain: PROLOGUE or STEP of its plain index (R160, R172). -/
def State.streamOf (s : State) (p : Nat) (step : Bool) : Option Stream :=
  match s.owner p with
  | none => none
  | some m => (s.ctx m).streams.find? fun x => x.step = step && x.index = ((s.plainsOf m).takeWhile fun q => q ≠ p).length

/-- The TAG of the command at a place of a plain's stream (R202): the STEP stream follows the PROLOGUE stream, and its first command follows its
last (DEDUCED, log entry 20). -/
def State.tagAt (s : State) (p pos : Nat) (pro : Bool) : W32 :=
  let at_ := fun (st : Stream) (q : Nat) => BitVec.ofNat 32 (leNat (s.read (st.addr + q + 8) 4))
  let inStep := fun q => match s.streamOf p true with
    | some st => if q + 64 ≤ st.bytes then at_ st q else if st.bytes = 0 then 0 else at_ st 0
    | none => 0
  match (if pro then s.streamOf p false else none) with
  | some st => if pos + 64 ≤ st.bytes then at_ st pos else inStep 0
  | none => inStep pos

/-- A plain stops (R201), with the TAG of the first command it did not issue (R202): a WAIT in progress, and a SIGNAL or CMP_TABLE that its PCC still
holds, are not issued (DESIGN CHOICE, log entry 132). -/
def State.stopPlain (s : State) (p : Nat) (tag : Option W32) : State :=
  let x := s.plain p
  let t := match tag with
    | some t => t
    | none => s.tagAt p x.pos x.prologue
  (s.setPlain p { x with pcc := .stopped, fetched := none, hold := .none }).setReg (offPln p 0x10) t

/-! ### The watershed and halts -/

/-- The completions of a stop (R617, R623). -/
def State.frozenEvents (s : State) (cause : Nat) : State :=
  let ms := (List.range 16).filter fun m => (s.ctx m).st ≠ .idle
  let s := s.adminEvent 0x20 0 [BitVec.ofNat 32 cause]
  let s := ms.foldl (fun s m => s.event 0x21 m 0 0 0 [BitVec.ofNat 32 cause]) s
  { s with frozen := ms }

/-- The watershed triggered (R611, R616, R617, R620, R621): the cause and the time are recorded; with SCAN_EN the completions follow the
scan-out, else they are posted at once. -/
def State.freeze (s : State) (cause dev : Nat) : State :=
  if s.dbg ≠ .running then s
  else
    let ctl := s.reg 0x98000
    let s := (s.setReg 0x98004 (BitVec.ofNat 32 (b2n (cause ≤ 4) * 2 ^ 29 + cause * 2 ^ 16 + dev % 4096))).setPairVal 0x98050 s.time.toNat
    let s := s.logAdd logWatershed none 0 0 0 cause dev 0
    let s := { s with dbg := if bit ctl 5 then .scanning else .stopped }
    let s := if (bit ctl 6 && cause ≤ 3) || (bit ctl 3 && cause = 4) then s.sendStops else s
    if bit ctl 5 then s else s.frozenEvents cause

/-- A fault recorded in PLN_FAULT and PLN_FAULT_TAG, unless one is held there (R152, R234). -/
def State.recordPlain (s : State) (p code : Nat) (tag : W32) (stream : Bool) : State :=
  if bit (s.reg (offPln p 8)) 31 then s
  else (s.setReg (offPln p 8) (BitVec.ofNat 32 (2 ^ 31 + b2n stream * 2 ^ 16 + code))).setReg (offPln p 0xC) tag

/-- A context halts (R201, R202, R510, R611): every plain stops, the plain `faulty` with the tag given; CTX_HALTED is posted. -/
def State.haltCtx (s : State) (m code : Nat) (faulty : Option (Nat × W32)) (tag : W32) : State :=
  let p := match faulty with | some (p, _) => p | none => 0
  let s := (s.plainsOf m).foldl (fun s q => s.stopPlain q (match faulty with
    | some (f, t) => if f = q then some t else none
    | none => none)) s
  let s := s.setCtx m { s.ctx m with plain := BitVec.ofNat 4 p }
  let s := s.setCtxState m .halted
  let s := s.event 0x02 m code p tag
  if bit (s.reg 0x98000) 4 then s.freeze 3 0 else s

/-- Whether a slot of the table store is still referenced (R348). -/
def State.referenced (s : State) (x : Slot) : Bool :=
  (List.range 16).any fun p => (s.plain p).issued.any fun c => c.gens.contains (x.handle, x.gen)

/-- RETIRING slots without references become FREE (R356). -/
def State.sweepSlots (s : State) : State := { s with slots := s.slots.filter fun x => x.current || s.referenced x }

/-- Every command of plain `p` after command `id`, and the command itself, abandoned (R201): nothing of them starts, ends or signals, and the
references they hold are released (R356). Packets they have sent stay in flight (R474, R704). -/
def State.abandonFrom (s : State) (p id : Nat) : State :=
  let x := s.plain p
  let s := (s.setPlain p { x with issued := x.issued.filter fun c => c.id < id, jobs := x.jobs.filter fun j => j.id < id }).sweepSlots
  { s with
    outst := s.outst.filterMap fun o => match o.owner with
      | .cmd q i _ _ _ _ => if q = p && id ≤ i then o.on.map (fun _ => { o with owner := .gone p }) else some o
      | _ => some o
    cow := { s.cow with waiting := s.cow.waiting.filter fun w => match w.owner with
      | .cmd q i => ! (q = p && id ≤ i)
      | _ => true } }

/-- Whether a per-context reset of context `m` waits for its requests (R694). -/
def State.resetting (s : State) (m : Nat) : Bool := bit (s.reg 0xC0004) m

/-- Whether a context can still be halted. -/
def CtxState.live : CtxState → Bool
  | .idle => false
  | .halted => false
  | _ => true

/-- A fault of plain `p` (R201, R202, R606): it is logged and recorded, and the context halts. `next` is the TAG of the command after the faulting
one; `cls` and `idx` name the source; `extra` is the first offending tile or object. A plain of a context that has halted before is given its own
PLN_NEXT_TAG with its record (log entry 131). -/
def State.fault (s : State) (p code : Nat) (tag next : W32) (stream : Bool) (cls idx extra : Nat) : State :=
  let m := s.owner p
  if (match m with | some m => s.resetting m | none => false) then s else
  let step := match m with | some m => (s.ctx m).step.toNat | none => 0
  let s := s.logAdd logFault m code cls idx tag.toNat step extra
  let new := ! bit (s.reg (offPln p 8)) 31
  let s := s.recordPlain p code tag stream
  match m with
  | none => s
  | some m =>
    if (s.ctx m).st.live then s.haltCtx m code (some (p, next)) tag
    else if new && (s.ctx m).st = .halted then s.setReg (offPln p 0x10) next
    else s

/-- The length in bytes of the descriptor whose first word is `w` (R122). -/
def descBytes (w : W32) : Nat := bits w 11 8 * 64

/-- A fault of the command a PCC is about to issue (R142, R201): nothing of it happens. -/
def State.issueFault (s : State) (p code : Nat) (extra : Nat := 0) : State :=
  let x := s.plain p
  let ws := x.fetched.getD []
  s.fault p code (wordAt ws 2) (s.tagAt p (x.pos + descBytes (wordAt ws 0)) x.prologue) false 1 p extra

/-- The positions of a core mask, ascending; the rank of a core is its place in the list. -/
def maskPos (mask : Nat) : List Nat := (List.range 16).filter fun p => mask.testBit p

/-- The registers of a core that faults (R146, R151 to R154). A fault that several named cores meet, or no one core, is recorded in the lowest of them
alone (DESIGN CHOICE, log entry 133). -/
def State.recordCore (s : State) (c code : Nat) (tag : W32) (tile : Option Nat) : State :=
  if bit (s.reg (offCore c 0x28)) 31 then s
  else
    let info := c % 16 + (match tile with | some t => t % 256 * 2 ^ 16 + 2 ^ 8 | none => 0)
    ((s.setReg (offCore c 0x28) (BitVec.ofNat 32 (2 ^ 31 + code))).setReg (offCore c 0x2C) tag).setReg (offCore c 0x30) (BitVec.ofNat 32 info)

/-- A fault found in core `c` by an issue check (R142, R146); `extra` is the tile or the object (R606). -/
def State.issueFaultCore (s : State) (p c code : Nat) (tile : Option Nat) (extra : Nat := tile.getD 0) : State :=
  let x := s.plain p
  let ws := x.fetched.getD []
  let s := s.recordCore c code (wordAt ws 2) tile
  s.fault p code (wordAt ws 2) (s.tagAt p (x.pos + descBytes (wordAt ws 0)) x.prologue) false 2 c extra

/-- A fault of an issued command, found in core `c` (R144, R201). -/
def State.faultIssued (s : State) (p : Nat) (i : Issued) (c code : Nat) : State :=
  let s := s.abandonFrom p i.id
  let s := s.recordCore c code (wordAt i.words 2) none
  s.fault p code (wordAt i.words 2) (s.tagAt p i.pos i.pro) false 2 c 0

/-- A fault of a DMA or COLL (R201). -/
def State.faultJob (s : State) (p : Nat) (j : Job) (code : Nat) (extra : Nat := 0) : State :=
  let s := s.abandonFrom p j.id
  s.fault p code (wordAt j.words 2) (s.tagAt p j.pos j.pro) false 1 p extra

end Sys2Proof.Machine
end

