-- ==== Sys2Proof/Machine/Compress.lean ====
section
/-! DEFINITION. C11 and C12: codes, tables and the table store (R337 to R364). -/

namespace Sys2Proof.Machine

/-- The distance of two numbers. -/
def absDiff (a b : Nat) : Nat := if a ≤ b then b - a else a - b

/-- The nearest non-zero entry of a table to exponent `e`, from entry `k` on; a tie keeps the lower index (R342). -/
def nearestEntry (t : List Nat) (e : Nat) : Nat → Nat → Nat → Nat
  | 0, _, x => x
  | n + 1, k, x => nearestEntry t e n (k + 1) (if absDiff (t.getD k 0) e < absDiff (t.getD x 0) e then k else x)

/-- The code of a BF16 value under a table, and whether it was clamped (R342). -/
def cmpEncode (c12 : Bool) (t : List Nat) (v : Nat) : Nat × Bool :=
  let n := if c12 then 16 else 8
  let w := if c12 then 12 else 11
  let e := v / 128 % 256
  let x := if e = 0 then 0 else nearestEntry t e (n - 2) 2 1
  (v / 32768 % 2 * 2 ^ (w - 1) + x * 128 + v % 128, e ≠ 0 && t.getD x 0 ≠ e)

/-- The BF16 value of a code (R340). -/
def cmpDecode (c12 : Bool) (t : List Nat) (code : Nat) : Nat :=
  let w := if c12 then 12 else 11
  let idx := code / 128 % (if c12 then 16 else 8)
  code / 2 ^ (w - 1) % 2 * 32768 + t.getD idx 0 * 128 + code % 128

/-- The entries of a table as numbers. -/
def tableNats (t : Bytes) : List Nat := t.map fun b => b.toNat

/-- Whether entries are in non-decreasing order. -/
def ascending : List Nat → Bool
  | a :: b :: r => a ≤ b && ascending (b :: r)
  | _ => true

/-- Whether 16 bytes are a valid table of a mode (R341, R353). -/
def tableOk (c12 : Bool) (t : Bytes) : Bool :=
  let e := tableNats t
  let n := if c12 then 16 else 8
  e.getD 0 0 = 0 && ((e.take n).drop 1).all (fun x => 1 ≤ x && x ≤ 255) && ascending (e.take n) && (e.drop n).all fun x => x = 0

/-- The exponent with the largest non-zero count that is not chosen yet; a tie goes to the larger exponent (R344). -/
def bestExp (h : Nat → Nat) (chosen : List Nat) : Option Nat :=
  (List.range 256).foldl (fun b e =>
    if e = 0 || h e = 0 || chosen.contains e then b
    else match b with
      | none => some e
      | some x => if h e ≥ h x then some e else some x) none

/-- The `n` exponents chosen (R344). -/
def chooseExps (h : Nat → Nat) : Nat → List Nat → List Nat
  | 0, l => l
  | n + 1, l =>
    match bestExp h l with
    | none => l
    | some e => chooseExps h n (e :: l)

/-- A number put into its place of an ascending list. -/
def insertAsc (x : Nat) : List Nat → List Nat
  | [] => [x]
  | y :: r => if x ≤ y then x :: y :: r else y :: insertAsc x r

/-- The table of a histogram (R344), as 16 bytes. -/
def buildTable (c12 : Bool) (h : Nat → Nat) : Bytes :=
  let n := if c12 then 16 else 8
  let l := chooseExps h (n - 1) []
  let top := if l = [] then 0x7F else l.foldl max 0
  let es := (l ++ List.replicate (n - 1 - l.length) top).foldr insertAsc []
  ((0 :: es) ++ List.replicate (16 - n) 0).map fun e => BitVec.ofNat 8 e

/-- The CURRENT slot of a handle (R346). -/
def State.currentSlot (s : State) (h : Nat) : Option Slot := s.slots.find? fun x => x.handle = h && x.current

/-- The slot of a handle and generation. -/
def State.slotOf (s : State) (h g : Nat) : Option Slot := s.slots.find? fun x => x.handle = h && x.gen = g

/-- The generation of a handle (R346). -/
def State.handleGen (s : State) (h : Nat) : Nat := storeGet zeroNat s.cmpGen h

/-- Whether context `m` owns handle `h` (R347). -/
def State.ownsHandle (s : State) (m h : Nat) : Bool :=
  let w := s.reg (0x68100 + 0x10 * m)
  bit w 31 && bits w 7 0 ≤ h && h ≤ bits w 15 8

/-- The base of a context's histogram area; 0 means none (R376). -/
def State.histBase (s : State) (m : Nat) : Nat := s.pairVal (0x68104 + 0x10 * m)

end Sys2Proof.Machine
end

