-- ==== Sys2Proof/Machine/Clear.lean ====
section
/-! DEFINITION. What resets and failed restores clear (R360, R569, R694, R696). -/

namespace Sys2Proof.Machine

/-- The memories, tile states and HOLD masks of a core as a cold reset leaves them (R99, R296). -/
def State.clearCore (s : State) (c : Nat) : State :=
  { s with field := storeClear s.field (c * 2 ^ 23) ((c + 1) * 2 ^ 23),
           acc := storeClear s.acc (c * 131072) ((c + 1) * 131072),
           basin := storeClear s.basin (c * 1048576) ((c + 1) * 1048576),
           accOpen := storePut zeroNat s.accOpen c 0,
           basinOpen := storePut zeroNat s.basinOpen c 0,
           accHold := storeClear s.accHold (c * 32) ((c + 1) * 32),
           basinHold := storeClear s.basinHold (c * 256) ((c + 1) * 256) }

/-- The cores of a plain. -/
def coresOf (p : Nat) : List Nat := (List.range 16).map fun i => 16 * p + i

/-- The tables and generations of the handles of a context cleared (R360). -/
def State.clearHandles (s : State) (m : Nat) : State :=
  { s with slots := s.slots.filter fun x => ! s.ownsHandle m x.handle,
           cmpGen := s.cmpGen.filter fun e => ! s.ownsHandle m e.1 }

/-- The on-chip state of a context as a per-context reset leaves it (R696). -/
def State.clearChip (s : State) (m : Nat) : State :=
  ((s.plainsOf m).flatMap coresOf).foldl (fun s c => s.clearCore c) (s.clearHandles m)

end Sys2Proof.Machine
end

