-- ==== Sys2Proof/Machine/EthOps.lean ====
section
/-! DEFINITION. The queue pairs of the Ethernet ports and their requester transfers (R525, R530, R537, R538). -/

namespace Sys2Proof.Machine

/-- ETH_QP_ERROR and ETH_QP_INVALID (R532). -/
def ethQpError : Nat := 0x1001
def ethQpInvalid : Nat := 0x1002

/-! ### Ports and queue pairs -/

def State.qp (s : State) (q : Nat) : Qp := storeGet (fun _ => Qp.reset) s.qpx q
def State.setQp (s : State) (q : Nat) (x : Qp) : State := { s with qpx := storePut (fun _ => Qp.reset) s.qpx q x }

/-- A word of a queue pair's entry replaced (R537). -/
def State.setQpWord (s : State) (q i : Nat) (w : W32) : State :=
  let e := storeGet (fun _ => []) s.qps q
  { s with qps := storePut (fun _ => []) s.qps q (((List.range 12).map fun k => wordAt e k).set i w) }

/-- The state of a queue pair (R537): 0 RESET, 1 READY, 2 ERROR. -/
def State.qpState (s : State) (q : Nat) : Nat := bits (s.qpWord q 0) 31 30
def State.setQpState (s : State) (q st : Nat) : State :=
  s.setQpWord q 0 ((s.qpWord q 0 &&& 0x3FFFFFFF#32) ||| BitVec.ofNat 32 (st * 2 ^ 30))

/-- The path MTU of a queue pair, and the packets of a message (R525, R537). -/
def State.mtu (s : State) (q : Nat) : Nat :=
  match bits (s.qpWord q 0) 23 21 with
  | 3 => 1024
  | 4 => 2048
  | 5 => 4096
  | k => Config.openMtu k
def State.packets (s : State) (q n : Nat) : Nat := max 1 (ceilDiv n (s.mtu q))

/-- A packet sequence number moves on (R537): `i` is 2 for SQ_PSN and 3 for RQ_PSN. -/
def State.movePsn (s : State) (q i n : Nat) : State :=
  s.setQpWord q i (BitVec.ofNat 32 (((s.qpWord q i).toNat + n) % 2 ^ 24))

/-- The request of a transfer sent (R525): what a write carries is read from device memory, or given by the checkpoint engine. A read asks for what has
not arrived, from the packet it is due in on. A request that is sent again keeps its packet sequence numbers (PRESUMED: the InfiniBand transport, log
entry 22). -/
def State.sendXfer (s : State) (q : Nat) (t : Xfer) : State :=
  if t.write then
    (match t.pair with
      | some r => s.mscRead (.pair r) [(t.dev, t.bytes)]
      | none => s).ethSend q (.write q t.psn t.rkey t.va (if t.pair = none then t.got else s.read t.dev t.bytes)) (s.packets q t.bytes)
  else s.ethSend q (.read q ((t.psn + t.done / s.mtu q) % 2 ^ 24) t.rkey (t.va + t.done) (t.bytes - t.done)) 1

/-- A transfer started on a queue pair (R525, R530, R556): it takes the next packet sequence numbers. -/
def State.startXfer (s : State) (q : Nat) (t : Xfer) : State :=
  let x := s.qp q
  let t := { t with psn := (s.qpWord q 2).toNat }
  ((s.setQp q { x with xfers := x.xfers ++ [t] }).sendXfer q t).movePsn q 2 (s.packets q t.bytes)

end Sys2Proof.Machine
end

