-- ==== Sys2Proof/Machine/Mem.lean ====
section
/-! DEFINITION. The memory blocks: copy-on-write, the scrubber, ECC events and failures of stacks, channels and the die-to-die link
(R27, R392 to R405, R421 to R426, R580). -/

namespace Sys2Proof.Machine

/-- TOP_D2D_LINK and HBM_STACK_FAIL (R27, R427). -/
def topD2dLink : Nat := 0x0101
def hbmStackFail : Nat := 0x0601

/-! ### Copy-on-write (R421 to R426) -/

/-- The address of a pool page (R423). -/
def State.poolAddr (s : State) (slot : Nat) : Nat := s.pairVal 0x20030 + 65536 * slot

/-- Whether a pool page is free. -/
def State.poolFree (s : State) (slot : Nat) : Bool := slot < (s.reg 0x20038).toNat && ! s.cow.pool.any fun e => e.1 = slot

/-- The lowest free pool page. -/
def State.freeSlot (s : State) : Option Nat := (List.range (s.cow.pool.length + 1)).find? fun i => s.poolFree i

/-- The entries of a store that lie from `src` up to `src + n`, put at `dst` in place of what lies there. -/
def storeCopy {α : Type} [DecidableEq α] (d : Nat → α) (st : Store α) (src dst n : Nat) : Store α :=
  (st.filter fun e => src ≤ e.1 && e.1 < src + n).foldl (fun t e => storePut d t (e.1 - src + dst) e.2) (storeClear st dst (dst + n))

/-- A page copied to a pool page, with its poison (R423): the entry is set to E and the writes that wait for it are applied. -/
def State.copyPage (s : State) (page slot : Nat) : State :=
  let a := pageAddr page
  let b := s.poolAddr slot
  let s := s.mscRead .other [(a, 65536)]
  let s := { s with msc := s.mscServe .other true (lineRequests [(b, 65536)]), mem := storeCopy memDefault s.mem a b 65536, poison := storeCopy (fun _ => false) s.poison (a / 64) (b / 64) 1024,
                    cow := { s.cow with pool := s.cow.pool ++ [(slot, page)] } }
  ((s.bump 0x20040).markPage page).releasePage page

/-- The oldest write that waits and was not yet counted is counted (R425). -/
def countWait : List CowWrite → Option (List CowWrite)
  | [] => none
  | w :: r => if w.counted then (countWait r).map (w :: ·) else some ({ w with counted := true } :: r)

/-- The copy that the oldest waiting write needs is made, or the write waits for a pool page (R423, R425). -/
def execCowPageCopy (s : State) : Result :=
  .next (match s.cow.waiting with
    | [] => s
    | w :: _ => match s.freeSlot with
      | some i => s.copyPage w.page i
      | none => match countWait s.cow.waiting with
        | some ws => { s with cow := { s.cow with waiting := ws } }.bump 0x20044
        | none => s)

/-- A pool page is free, and the oldest write that waited for one goes on (R425). -/
def execCowPoolWaitEnd (slot : Nat) (s : State) : Result :=
  .next (match s.cow.waiting.find? (·.counted) with
    | some w => if s.poolFree slot then s.copyPage w.page slot else s
    | none => s)

/-- Tracking starts for context `m` under the next epoch (R422), or is refused. -/
def State.cowStart (s : State) (m : Nat) : Option State :=
  if s.reg 0x20024 = 0xFFFFFFFF#32 then none
  else some ((s.setReg 0x20024 (s.reg 0x20024 + 1)).setBits 0x20020 0xF1 (BitVec.ofNat 32 (1 + 16 * (m % 16))))

/-- A write of MEM_COW_CTRL with ACTIVE = 1 (R422, R426, R555). -/
def State.cowSet (s : State) (v m : Nat) : State :=
  let value := BitVec.ofNat 32 (1 + 16 * (m % 16))
  if s.ckp.draining then s.discard v 0x20020 value
  else if s.cowActive then (if s.cowCtx = m % 16 then s else s.discard v 0x20020 value)
  else (s.cowStart m).getD (s.discard v 0x20020 value)

/-- Software sets ACTIVE (R422). -/
def execCowActiveSet (ctx : Fin 16) (s : State) : Result :=
  .next (s.regGate true 16 0x20020 (BitVec.ofNat 32 (1 + 16 * ctx.val)) fun s => s.cowSet 16 ctx)

/-- A write of MEM_COW_CTRL with ACTIVE = 0 (R426, R555); `m` is the CONTEXT it names. While ACTIVE is 1 a write that would change CONTEXT is
discarded whole (log entry 110). -/
def State.cowClear (s : State) (v m : Nat) : State :=
  let value := BitVec.ofNat 32 (16 * (m % 16))
  if s.ckp.draining || (s.cowActive && s.cowCtx ≠ m % 16) then s.discard v 0x20020 value
  else s.cowEnd.setBits 0x20020 0xF0 value

/-- Software writes ACTIVE = 0, with a CONTEXT (R426). -/
def execCowActiveClear (ctx : Fin 16) (s : State) : Result :=
  .next (s.regGate true 16 0x20020 (BitVec.ofNat 32 (16 * ctx.val)) fun s => s.cowClear 16 ctx)

/-! ### The scrubber and ECC (R399 to R405, R580) -/

/-- The BAR0 offset of the corrected-error counter of an address's memory controller (R380, R381, R433, R434). -/
def eccOf (a : Nat) : Nat := if a < ddrBase then 0x30004 + 0x40 * controllerOf a else 0x38008 + 0x40 * controllerOf a

/-- A line marked poisoned (R401). -/
def State.poisonLine (s : State) (l : Nat) : State :=
  if storeGet (fun _ => false) s.poison l then s
  else { s with poison := storePut (fun _ => false) s.poison l true }.bump 0x20014

/-- A full pass starts (R429). -/
def execScrubFull (s : State) : Result := .next (s.regGate true 16 0x2000C 2 fun s => s.setBits 0x2000C 2 2)

/-- Whether the scrubber reads lines (R404, R429). -/
def State.scrubbing (s : State) : Bool := bits (s.reg 0x2000C) 1 0 ≠ 0

/-- An error that the code of the MSC cannot correct (R402): a clean line is invalidated and counted, and the request is served from memory again; a
dirty one is poisoned. -/
def State.mscError (s : State) (a : Nat) : State :=
  match s.msc.find (a / 2048) with
  | none => s
  | some e =>
    if e.dirty ≠ 0 then s.poisonLine (a / 64)
    else ({ s with msc := s.msc.mapLines fun x => if x.line = e.line then none else some x }.bump (0x28008 + 0x40 * homeOf a)).mscRead .other [(a, 64)]

/-- What a read of a line meets, the scrubber's or another's (R400 to R405): a correction is counted, an uncorrectable line is poisoned, a
poisoned one counted and left. A line whose dirty copy the MSC holds is not read from memory (R405). Errors in the MSC are counted, or R402 says
what they do. -/
def execScrubLine (addr : W64) (o : LineObs) (s : State) : Result :=
  .next (
    let a := addr.toNat / 64 * 64
    let corr := eccOf a
    let bad := s.cellPoisoned a 64
    if ! s.mapped a 64 || (ddrBase ≤ a && s.ddrFailed) then s
    else match o with
      | .clean => if bad && s.scrubbing && ! s.msc.dirtyAt (a / 64) then s.bump (corr + 4) else s
      | .corrected => if s.msc.dirtyAt (a / 64) then s else if bad then s.bump (corr + 4) else s.bump corr
      | .uncorrectable => if s.msc.dirtyAt (a / 64) then s else (s.bump (corr + 4)).poisonLine (a / 64)
      | .mscUncorrectable => s.mscError a
      | .mscCorrected => s.bump (0x28008 + 0x40 * homeOf a))

/-- A pass ends (R429). -/
def execScrubPassEnd (full : Bool) (s : State) : Result :=
  .next (
    let c := s.reg 0x2000C
    if ! (if full then bit c 1 else bit c 0) then s
    else
      let s := s.setReg 0x20010 (BitVec.ofNat 32 (min 0xFFFF ((s.reg 0x20010).toNat + 1)))
      if full then s.setBits 0x2000C 2 0 else s)

/-- The units whose corrected errors are watched: the key of the last count, the counter, the class and the number in the log (R3, R580, R605). -/
def eccUnits : List (Nat × Nat × Nat × Nat) :=
  (List.range 12).map (fun n => (n, 0x30004 + 0x40 * n, 6, n)) ++ (List.range 8).map (fun c => (16 + c, 0x38008 + 0x40 * c, 6, c)) ++
  (List.range 256).map fun c => (32 + c, offCore c 0x34, 2, c)

/-- ECC_RATE (R586). -/
def eccRate : Nat := 0x19

/-- The hourly check of the corrected errors (R580). -/
def execEccRateCheck (s : State) : Result :=
  .next (eccUnits.foldl (fun s u =>
    let now := s.reg u.2.1
    let grown := now.toNat - (storeGet zeroWord s.eccHour u.1).toNat
    let s := { s with eccHour := storePut zeroWord s.eccHour u.1 now }
    if grown > (s.reg 0x90008).toNat then
      (s.logAdd logEcc none 0 u.2.2.1 u.2.2.2 (u.2.2.1 * 2 ^ 28 + u.2.2.2) grown 0).adminEvent eccRate 0 []
    else s) s)

/-! ### Temperatures and failures (R27, R392, R393, R396 to R398) -/

/-- A temperature reported: it is recorded, and the refresh rate follows it (R392, R396). -/
def State.refresh (s : State) (off lsb : Nat) (t : BitVec 8) : State :=
  let s := s.setBits off (BitVec.ofNat 32 (255 * 2 ^ lsb)) (BitVec.ofNat 32 (t.toNat * 2 ^ lsb))
  if t.toNat > 85 then s.setBits off 1 1 else if t.toNat < 80 then s.setBits off 1 0 else s

/-- A stack reports more than 85 °C (R392). -/
def execHbmTempHigh (n : Fin 12) (tempC : BitVec 8) (s : State) : Result := .next (s.refresh (0x30000 + 0x40 * n) 16 tempC)

/-- A stack falls below 80 °C (R392). -/
def execHbmTempNormal (n : Fin 12) (tempC : BitVec 8) (s : State) : Result := .next (s.refresh (0x30000 + 0x40 * n) 16 tempC)

/-- An RDIMM reports more than 85 °C (R396). -/
def execDdrTempHigh (n : Fin 8) (tempC : BitVec 8) (s : State) : Result := .next (s.refresh (0x38000 + 0x40 * n) 8 tempC)

/-- An RDIMM falls below 80 °C (R396). -/
def execDdrTempNormal (n : Fin 8) (tempC : BitVec 8) (s : State) : Result := .next (s.refresh (0x38000 + 0x40 * n) 8 tempC)

/-- A stack stops responding: it is marked FAILED and no longer in service, the watershed stops, and stores not yet applied are lost, with the
answers that wait for them (R393, R427). -/
def execHbmStackFail (n : Fin 12) (s : State) : Result :=
  .next (
    let s := { s with acks := s.acks.filter (fun a => ! s.ackHeld a.1), cow := { s.cow with waiting := [] } }
    ((s.setBits (0x30000 + 0x40 * n) 0xC0000000#32 0x40000000#32).logAdd logFault none hbmStackFail 6 n 0 0 0).freeze 6 0)

/-- A die-to-die module exhausts its retries (R27). The entry names the hub as its source, and writes of the host window, the links, RDMA or the
scan-out that come after the stop are still made: which module failed, and which of them would cross it, is stated nowhere (DESIGN CHOICE, log
entry 136). -/
def execD2dRetryLimit (s : State) : Result := .next ((s.logAdd logFault none topD2dLink 0 0 0 0 0).freeze 5 0)

end Sys2Proof.Machine
end

