-- ==== Sys2Proof/Machine/Transc.lean ====
section
/-! DEFINITION. exp2, log2 (R61, R62) and the random words (R83 to R86). -/

namespace Sys2Proof.Machine

/-- Σ x^(2i+1) / (2i+1) for x = num / den in fixed point with p fraction bits; `t` is the running power. -/
def atanhTerms (p num den : Nat) : Nat → Nat → Nat → Nat
  | 0, _, _ => 0
  | n + 1, i, t => t / (2 * i + 1) + atanhTerms p num den n (i + 1) (t * num * num / (den * den))

/-- atanh(num / den) for num / den ≤ 1/3, below the true value by less than 2^12 units of 2^-p. -/
def atanhFix (p num den : Nat) : Nat := atanhTerms p num den (p / 3 + 4) 0 (num * 2 ^ p / den)

/-- ln 2 = 2 · atanh(1/3). -/
def ln2Fix (p : Nat) : Nat := 2 * atanhFix p 1 3

/-- Σ t^i / i! in fixed point. -/
def expTerms (p t : Nat) : Nat → Nat → Nat → Nat
  | 0, _, _ => 0
  | n + 1, i, term => term + expTerms p t n (i + 1) (term * t / 2 ^ p / (i + 1))

/-- 2^(num / 2^k) for a fraction below 1, in fixed point with p fraction bits. -/
def exp2Fix (p num k : Nat) : Nat := expTerms p (num * ln2Fix p / 2 ^ k) (p / 2 + 8) 0 (2 ^ p)

/-- The rounding of a fixed-point result whose error is below 2^16 units: the first precision at which both ends of the
interval round alike decides (R61). -/
def roundFix (approx : Nat → Int × Int) : List Nat → W32
  | [] => f32nan
  | p :: r =>
    let (v, e) := approx p
    let lo := v - 2 ^ 16
    let hi := v + 2 ^ 16
    let a := toF32 (.fin (decide (lo < 0)) lo.natAbs e)
    let b := toF32 (.fin (decide (hi < 0)) hi.natAbs e)
    if a = b ∨ r = [] then a else roundFix approx r

/-- The precisions tried. -/
def precisions : List Nat := [256, 512, 1024]

/-- exp2, correctly rounded (R61, R62). -/
def fexp2 (a : W32) : W32 :=
  match f32 a with
  | .nan => f32nan
  | .inf s => if s then f32zero else f32inf
  | .fin s m e =>
    if m = 0 then f32one
    else if magGt m e 200 0 then (if s then f32zero else f32inf)
    else
      let k := (-e).toNat
      let x : Int := (if s then -1 else 1) * (m * 2 ^ e.toNat)
      let n := x / 2 ^ k
      let num := (x % 2 ^ k).toNat
      if num = 0 then toF32 (.fin false 1 n)
      else roundFix (fun p => ((exp2Fix p num k : Int), n - p)) precisions

/-- log2, correctly rounded (R61, R62). -/
def flog2 (a : W32) : W32 :=
  match f32 a with
  | .nan => f32nan
  | .inf s => if s then f32nan else f32inf
  | .fin s m e =>
    if m = 0 then f32ninf
    else if s then f32nan
    else
      let l := Nat.log2 m
      let n : Int := e + l
      let one := 2 ^ l
      if m = one then toF32 (.fin (decide (n < 0)) n.natAbs 0)
      else roundFix (fun p =>
        (n * 2 ^ p + ((2 * atanhFix p (m - one) (m + one) * 2 ^ p / ln2Fix p : Nat) : Int), -(p : Int))) precisions

/-- One round of Philox-4x32 (R83). -/
def philoxRound (c : Nat × Nat × Nat × Nat) (k0 k1 : Nat) : Nat × Nat × Nat × Nat :=
  let p0 := 0xD2511F53 * c.1
  let p1 := 0xCD9E8D57 * c.2.2.1
  ((p1 / 2 ^ 32) ^^^ c.2.1 ^^^ k0, p1 % 2 ^ 32, (p0 / 2 ^ 32) ^^^ c.2.2.2 ^^^ k1, p0 % 2 ^ 32)

/-- `n` rounds, the key bumped between them. -/
def philoxRounds : Nat → Nat → Nat → Nat × Nat × Nat × Nat → Nat × Nat × Nat × Nat
  | 0, _, _, c => c
  | n + 1, k0, k1, c =>
    philoxRounds n ((k0 + 0x9E3779B9) % 2 ^ 32) ((k1 + 0xBB67AE85) % 2 ^ 32) (philoxRound c k0 k1)

/-- Philox-4x32-10 (R83). -/
def philox (seed : Nat) (c0 c1 c2 c3 : Nat) : Nat × Nat × Nat × Nat :=
  philoxRounds 10 (seed % 2 ^ 32) (seed / 2 ^ 32 % 2 ^ 32) (c0, c1, c2, c3)

/-- The random word of an element (R84, R85): `tag` holds layer and operator ID. -/
def randWord (seed step tag block purpose elem : Nat) : Nat :=
  let o := philox seed (step % 2 ^ 32) (tag % 2 ^ 32) (block % 2 ^ 32) (purpose * 2 ^ 28 + elem / 4)
  match elem % 4 with
  | 0 => o.1
  | 1 => o.2.1
  | 2 => o.2.2.1
  | _ => o.2.2.2

end Sys2Proof.Machine
end

