-- ==== Sys2Proof/Machine/Operands.lean ====
section
/-! DEFINITION. Tensor references: their validity, addresses, fetches and element values (R104 to R117, R337 to R350). -/

namespace Sys2Proof.Machine

/-- A tensor reference (R107). -/
structure Tref where
  base   : Nat
  rows   : Nat
  cols   : Nat
  field  : Bool
  fmt    : Nat
  stride : Nat
  aux    : Nat
  resv   : Bool
  deriving DecidableEq, Repr

/-- The tensor reference in words `i` to `i + 7` of a descriptor (R107). -/
def trefAt (ws : Words) (i : Nat) : Tref :=
  let w4 := wordAt ws (i + 4)
  ⟨dword ws i, (wordAt ws (i + 2)).toNat, (wordAt ws (i + 3)).toNat, bit w4 4, bits w4 3 0, (wordAt ws (i + 5)).toNat,
   dword ws (i + 6), bits w4 31 5 ≠ 0⟩

/-- Whether eight words are all zero: an unused reference. -/
def trefZero (ws : Words) (i : Nat) : Bool := (List.range 8).all fun k => wordAt ws (i + k) = 0

/-- Block rows and block columns of the tensor (R104). -/
def Tref.blockRows (t : Tref) : Nat := ceilDiv t.rows 64
def Tref.blockCols (t : Tref) : Nat := ceilDiv t.cols 64
def Tref.blocks (t : Tref) : Nat := t.blockRows * t.stride
def Tref.fp8 (t : Tref) : Bool := t.fmt = 3 || t.fmt = 4
def Tref.cmp (t : Tref) : Bool := t.fmt = 5 || t.fmt = 6
def Tref.handle (t : Tref) : Nat := t.aux % 256
def Tref.histEn (t : Tref) : Bool := t.aux.testBit 8

/-- Whether a reference is valid (R109). -/
def Tref.valid (t : Tref) : Bool :=
  t.fmt ≤ 6 && t.rows ≠ 0 && t.cols ≠ 0 && t.stride ≠ 0 && t.blockCols ≤ t.stride && t.blocks ≤ 2 ^ 32 &&
  (if t.field then t.base % 64 = 0 && t.base < 2 ^ 32 && t.aux < 2 ^ 32 else t.base % 4096 = 0) &&
  (! t.fp8 || t.aux ≠ 0)

/-- Bytes of a block (R105, R337). -/
def blockBytes (fmt : Nat) : Nat :=
  match fmt with
  | 0 => 16384
  | 1 => 8192
  | 2 => 6144
  | 3 => 4096
  | 4 => 4096
  | 5 => 5696
  | _ => 6208

/-- Bytes of a row of a block, without the header of a compressed one. -/
def rowBytes (fmt : Nat) : Nat :=
  match fmt with
  | 0 => 256
  | 1 => 128
  | 2 => 96
  | 3 => 64
  | 4 => 64
  | 5 => 88
  | _ => 96

/-- Bits of a stored element. -/
def elemBits (fmt : Nat) : Nat :=
  match fmt with
  | 0 => 32
  | 1 => 16
  | 2 => 12
  | 3 => 8
  | 4 => 8
  | 5 => 11
  | _ => 12

/-- The arithmetic format of an uncompressed format code; compressed elements are BF16 values (R37). -/
def fmtOf (fmt : Nat) : FFmt :=
  match fmt with
  | 0 => .fp32
  | 2 => .w12
  | 3 => .e4m3
  | 4 => .e5m2
  | _ => .bf16

/-- The index of the block that holds element (r, c) (R104). -/
def Tref.blockOf (t : Tref) (r c : Nat) : Nat := r / 64 * t.stride + c / 64

/-- The address of a block, modulo 2^64 (R106). -/
def Tref.blockAddr (t : Tref) (b : Nat) : Nat := (t.base + b * blockBytes t.fmt) % 2 ^ 64

/-- The byte that holds the lowest bit of element (i, j) of a block at `a`, and that bit's place in it (R39, R106, R339). -/
def elemPlace (fmt a i j : Nat) : Nat × Nat :=
  let h := if fmt = 5 || fmt = 6 then 64 else 0
  ((a + h + i * rowBytes fmt + j * elemBits fmt / 8) % 2 ^ 64, j * elemBits fmt % 8)

/-- An address in the scale arrays and the bitmap of an FP8 tensor, modulo 2^64 (R107). -/
def Tref.auxAddr (t : Tref) (k : Nat) : Nat := (t.aux + k) % 2 ^ 64

/-- Bytes where a tensor lies: device memory, or the Field of core `c`. -/
def State.locBytes (s : State) (c : Nat) (field : Bool) (a n : Nat) : Bytes :=
  if field then s.fieldRead c a n else s.read a n

/-- The stored code of element (i, j) of a block at `a`. -/
def State.elemCode (s : State) (c : Nat) (field : Bool) (fmt a i j : Nat) : Nat :=
  let (b, sh) := elemPlace fmt a i j
  leNat (s.locBytes c field b ((sh + elemBits fmt + 7) / 8)) / 2 ^ sh % 2 ^ elemBits fmt

/-- The table of a handle under a command's references (R340, R348). -/
def State.tableFor (s : State) (gens : List (Nat × Nat)) (h : Nat) : List Nat :=
  match gens.find? fun g => g.1 = h with
  | none => []
  | some g => match s.slotOf h g.2 with
    | none => []
    | some x => tableNats x.table

/-- +0. -/
def vzero : FVal := .fin false 0 0

/-- The value of element (r, k) of a tensor as a command of core `c` reads it: +0 past the edge (R111, R113), with block scale (R76) or
expansion (R340). -/
def State.elem (s : State) (c : Nat) (t : Tref) (gens : List (Nat × Nat)) (r k : Nat) : FVal :=
  if r < t.rows && k < t.cols then
    let b := t.blockOf r k
    let code := s.elemCode c t.field t.fmt (t.blockAddr b) (r % 64) (k % 64)
    if t.cmp then fdec .bf16 (cmpDecode (t.fmt = 6) (s.tableFor gens t.handle) code)
    else if t.fp8 then vscale (scaleOf ((s.locBytes c t.field (t.auxAddr b) 1).getD 0 0)) (fdec (fmtOf t.fmt) code)
    else fdec (fmtOf t.fmt) code
  else vzero

/-- An element widened to FP32 (R69). -/
def State.elem32 (s : State) (c : Nat) (t : Tref) (gens : List (Nat × Nat)) (r k : Nat) : W32 := toF32 (s.elem c t gens r k)

/-- Valid rows and columns of block (br, bc). -/
def Tref.validRows (t : Tref) (br : Nat) : Nat := min 64 (t.rows - 64 * br)
def Tref.validCols (t : Tref) (bc : Nat) : Nat := min 64 (t.cols - 64 * bc)

/-- Whether a block lies at least partly inside the tensor (R112, R116). -/
def Tref.inside (t : Tref) (br bc : Nat) : Bool := 64 * br < t.rows && 64 * bc < t.cols

/-- A range of bytes widened to whole 64-byte granules (R110). -/
def granules (a n : Nat) : Nat × Nat := (a / 64 * 64, (a + n + 63) / 64 * 64 - a / 64 * 64)

/-- What the fetch of a block reads (R110, R366): granules with valid elements, of the rows that `keep` names; a compressed block whole. -/
def Tref.fetchRunsIf (t : Tref) (keep : Nat → Bool) (br bc : Nat) : List (Nat × Nat) :=
  if ! t.inside br bc then []
  else
    let a := t.blockAddr (br * t.stride + bc)
    if t.cmp then [(a, blockBytes t.fmt)]
    else ((List.range (t.validRows br)).filter keep).map fun i => granules (a + i * rowBytes t.fmt) (ceilDiv (t.validCols bc * elemBits t.fmt) 8)
def Tref.fetchRuns (t : Tref) (br bc : Nat) : List (Nat × Nat) := t.fetchRunsIf (fun _ => true) br bc

/-- The bytes a list of runs of whole granules reads, each granule once. -/
def runsBytes (l : List (Nat × Nat)) : Nat := 64 * (l.flatMap fun r => (List.range (r.2 / 64)).map fun i => r.1 / 64 + i).eraseDups.length

/-- The bytes a fetch of a block reads from memory. -/
def Tref.fetchBytesIf (t : Tref) (keep : Nat → Bool) (br bc : Nat) : Nat :=
  if t.field || ! t.inside br bc then 0
  else if t.cmp then blockBytes t.fmt
  else runsBytes (t.fetchRunsIf keep br bc)
def Tref.fetchBytes (t : Tref) (br bc : Nat) : Nat := t.fetchBytesIf (fun _ => true) br bc

/-- Everything a command reads from device memory for the blocks of a tensor: the blocks, and the scale bytes of FP8 (R76). -/
def Tref.readRuns (t : Tref) (blocks : List (Nat × Nat)) : List (Nat × Nat) :=
  if t.field then []
  else blocks.flatMap fun b =>
    t.fetchRuns b.1 b.2 ++ (if t.fp8 && t.inside b.1 b.2 then [(t.auxAddr (b.1 * t.stride + b.2), 1)] else [])

/-- What a command reads of one operand: the blocks its core reads, and, where the operand is shared, the blocks that any core of the mask reads
(R119). -/
structure Fetch where
  t      : Tref
  own    : List (Nat × Nat)
  shared : Bool
  all    : List (Nat × Nat)

/-- The blocks counted: of a shared operand those that any core reads, once (R701). -/
def Fetch.counted (f : Fetch) : List (Nat × Nat) := if f.shared then f.all else f.own

/-- Bytes read from memory for the counted blocks. -/
def Fetch.bytes (f : Fetch) : Nat := (f.counted.map fun b => f.t.fetchBytes b.1 b.2).sum

/-- BYTES_FETCHED, BYTES_MCAST_SAVED, BLOCKS_ZERO_FILLED and EXPAND_VALUES of one operand in the core of rank `r` (R112, R370, R596, R701). Every
core of the mask counts the zero-filled blocks that it uses, shared or not, and a compressed block counts 4,096 expanded values whether it was read
or zero-filled (DESIGN CHOICE, log entry 137). -/
def Fetch.counts (f : Fetch) (r : Nat) : Nat × Nat × Nat × Nat :=
  (if f.shared && r ≠ 0 then 0 else f.bytes, if f.shared && r ≠ 0 then f.bytes else 0,
   if f.t.field then 0 else (f.own.filter fun b => ! f.t.inside b.1 b.2).length, if f.t.cmp then 4096 * f.own.length else 0)

/-- The counters of several operands, added. -/
def fetchCounts (fs : List Fetch) (r : Nat) : Nat × Nat × Nat × Nat :=
  let l := fs.map fun f => f.counts r
  ((l.map fun x => x.1).sum, (l.map fun x => x.2.1).sum, (l.map fun x => x.2.2.1).sum, (l.map fun x => x.2.2.2).sum)

/-- What the core of rank `r` asks of device memory for several operands: the core of rank 0 for all of them where the operand is shared. -/
def fetchRunsOf (fs : List Fetch) (r : Nat) : List (Nat × Nat) :=
  fs.flatMap fun f => if f.shared && r ≠ 0 then [] else f.t.readRuns f.counted

/-- Blocks of every rank, each once. -/
def unionOf (n : Nat) (f : Nat → List (Nat × Nat)) : List (Nat × Nat) := ((List.range n).flatMap f).eraseDups

/-- The first fault of a list. -/
def firstFault (l : List (Option Nat)) : Option Nat := l.findSome? id

/-- The first reason a list of reads on behalf of context `m` stops a command (R386, R397, R403). -/
def State.readFault (s : State) (m : Nat) (runs : List (Nat × Nat)) : Option Nat :=
  runs.findSome? fun r =>
    match s.refused (some m) r.1 r.2 false with
    | some f => some f
    | none => if s.poisoned r.1 r.2 then some memUncorr else none

/-- The first reason the writes of masked bytes stop a command (R386, R397). -/
def State.writeFault (s : State) (m : Nat) (bs : List (Nat × Byte × Byte)) : Option Nat :=
  ((bs.map fun b => b.1 / 2048).eraseDups).findSome? fun g => s.refused (some m) (g * 2048) 1 true

/-- Word 0 of a compressed block's header (R338). -/
def State.cmpHeader (s : State) (c : Nat) (field : Bool) (a : Nat) : W32 := BitVec.ofNat 32 (leNat (s.locBytes c field a 4))

/-- Whether a compressed block fails the expander's check (R350). -/
def State.cmpStale (s : State) (c : Nat) (t : Tref) (gens : List (Nat × Nat)) (br bc : Nat) : Bool :=
  t.cmp && t.inside br bc &&
  (let h := s.cmpHeader c t.field (t.blockAddr (br * t.stride + bc))
   ! (bits h 27 20 = t.handle && bit h 19 = (t.fmt = 6 : Bool) && gens.contains (t.handle, bits h 31 28)))

/-- Why reading the blocks of a tensor stops a command (R350, R386, R403). -/
def State.tensorFault (s : State) (m c : Nat) (t : Tref) (gens : List (Nat × Nat)) (blocks : List (Nat × Nat)) : Option Nat :=
  match s.readFault m (t.readRuns blocks) with
  | some f => some f
  | none => if blocks.any fun b => s.cmpStale c t gens b.1 b.2 then some 0x0D02 else none

/-- The Field ranges of a tensor: its blocks, and the scale arrays and the bitmap of FP8 (R94, R107). -/
def Tref.fieldRanges (t : Tref) : List (Nat × Nat) :=
  (t.base, t.blocks * blockBytes t.fmt) :: (if t.fp8 then [(t.aux, 2 * t.blocks + ceilDiv t.blocks 8)] else [])

/-- The last byte a tensor occupies in Field, one past it (FIELD_RANGE of R142). -/
def Tref.endByte (t : Tref) : Nat := t.fieldRanges.foldl (fun m r => max m (r.1 + r.2)) 0

/-- Whether a Field-resident tensor reaches past the end of Field. -/
def Tref.pastField (t : Tref) : Bool := t.field && t.endByte > 0x600000

/-- The size of a shape in tiles (R118): rows and columns of tiles; none for an invalid code. -/
def shapeTiles (code : Nat) : Option (Nat × Nat) :=
  match code with
  | 1 => some (1, 1)
  | 2 => some (2, 1)
  | 3 => some (1, 2)
  | 4 => some (2, 2)
  | 5 => some (4, 2)
  | _ => none


end Sys2Proof.Machine
end

