-- ==== Sys2Proof/Machine/Issue.lean ====
section
/-! DEFINITION. How a PCC takes a command from its stream, the issue checks of tile commands and their place in the queues (R100 to R102,
R142, R178 to R182, R349, R619, R702, R703). -/

namespace Sys2Proof.Machine

/-- TYPE, LEN, CORE_MASK, TAG of a header (R122). -/
def hdrType (ws : Words) : Nat := bits (wordAt ws 0) 7 0
def hdrLen (ws : Words) : Nat := bits (wordAt ws 0) 11 8
def hdrMask (ws : Words) : Nat := bits (wordAt ws 0) 31 16
def hdrTag (ws : Words) : W32 := wordAt ws 2
def hdrDoneEn (ws : Words) : Bool := bit (wordAt ws 3) 15
def hdrDoneObj (ws : Words) : Nat := bits (wordAt ws 3) 13 0

/-- Whether one of the masks meets its word. -/
def anyBits (ws : Words) (l : List (Nat × Nat)) : Bool := l.any fun x => (wordAt ws x.1).toNat &&& x.2 ≠ 0

/-- Whether a word from `a` up to, and not including, `b` is not zero. -/
def anyWords (ws : Words) (a b : Nat) : Bool := (List.range (b - a)).any fun i => wordAt ws (a + i) ≠ 0

/-- Whether a reserved field of the header is not zero (R122). -/
def hdrReserved (ws : Words) : Bool := anyBits ws [(0, 0xF000), (3, 0xFFFF4000)]

/-- Whether a reserved field of a tensor reference is not zero (R107, R345). -/
def Tref.reserved (t : Tref) : Bool := t.resv || (t.cmp && t.aux ≥ 512)

/-- AUX must be zero where the format gives it no meaning (R107, R703). -/
def Tref.auxBad (t : Tref) : Bool := t.fmt ≤ 2 && t.aux ≠ 0

/-- A run of tiles a command names: what it needs of them, and which of them it frees, by place in the run (R101, R258, R270). -/
structure TileRun where
  basin   : Bool
  base    : Nat
  count   : Nat
  open_   : Bool
  freed   : List Nat
  deriving DecidableEq, Repr

/-- What the issue checks of R142 ask of a command; `invalid` and `fieldBad` by rank; `handles` are the
references whose handles are checked and referenced (R348, R349). -/
structure TileSpec where
  reserved : Bool
  invalid  : Nat → Bool
  trefs    : List Tref
  handles  : List Tref
  hist     : Bool
  mix      : Bool
  chain    : Bool
  fieldBad : Nat → Bool
  tiles    : List TileRun

/-- The last tile of a memory, one past it (R102). -/
def tileLimit (basin : Bool) : Nat := if basin then 256 else 32

/-- Whether a run lies wholly within its memory. -/
def TileRun.fits (r : TileRun) : Bool := r.base + r.count ≤ tileLimit r.basin

/-- The lowest tile of a run in the wrong state in core `c`. -/
def State.wrongTile (s : State) (c : Nat) (r : TileRun) : Option Nat :=
  ((List.range r.count).map fun i => r.base + i).find? fun t => s.tileOpen r.basin c t ≠ r.open_

/-- The fault of orders 9 to 11 in core `c`: its order, its code and the tile. -/
def State.tileFault (s : State) (c : Nat) (runs : List TileRun) : Option (Nat × Nat × Nat) :=
  let o9 := runs.findSome? fun r => if r.open_ && r.fits then (s.wrongTile c r).map fun t => (9, 0x0808, t) else none
  let outside (basin : Bool) := runs.findSome? fun r =>
    if r.basin ≠ basin then none
    else if ! r.fits then some r.base
    else if ! r.open_ then s.wrongTile c r else none
  match o9 with
  | some x => some x
  | none => match outside false with
    | some t => some (10, 0x0801, t)
    | none => (outside true).map fun t => (11, 0x0802, t)

/-- Whether a compressed reference breaks the handle rules (R349). -/
def State.handleBad (s : State) (m : Nat) (t : Tref) : Bool :=
  t.cmp && (! s.ownsHandle m t.handle || (s.currentSlot t.handle).isNone)

/-- Whether a compressed reference differs from its handle's mode (R349). -/
def State.modeBad (s : State) (t : Tref) : Bool :=
  t.cmp && (match s.currentSlot t.handle with | some x => x.c12 ≠ (t.fmt = 6 : Bool) | none => false)

/-- The first failing check of R142 of a command of plain `p`: code, core position and tile. -/
def State.tileCheck (s : State) (p m : Nat) (ws : Words) (d : TileSpec) : Option (Nat × Nat × Option Nat) :=
  let pos := maskPos (hdrMask ws)
  let lowest := pos.headD 0
  let badRank (f : Nat → Bool) := (List.range pos.length).find? f
  if d.reserved then some (0x0B01, lowest, none)
  else if hdrMask ws = 0 then some (0x0805, 0, none)
  else match badRank d.invalid with
  | some r => some (0x0805, pos.getD r 0, none)
  | none =>
    if d.trefs.any fun t => ! t.valid then some (0x0807, lowest, none)
    else if (d.handles.any fun t => s.handleBad m t) || (d.hist && s.histBase m = 0) then some (0x0D01, lowest, none)
    else if d.mix || d.handles.any fun t => s.modeBad t then some (0x0803, lowest, none)
    else if d.chain then some (0x0806, lowest, none)
    else match badRank d.fieldBad with
    | some r => some (0x0804, pos.getD r 0, none)
    | none =>
      if hdrDoneEn ws && ! s.ownsObj m (hdrDoneObj ws) then some (0x0A02, lowest, none)
      else
        let fs := pos.filterMap fun q => (s.tileFault (16 * p + q) d.tiles).map fun f => (f, q)
        (fs.foldl (fun best f => match best with
          | none => some f
          | some b => if f.1.1 < b.1.1 then some f else some b) none).map fun f => (f.1.2.1, f.2, some f.1.2.2)

/-- The commands waiting in a core's queue (R180). -/
def State.queueLen (s : State) (p pos : Nat) : Nat :=
  ((s.plain p).issued.filter fun i => i.runs.any fun r => r.pos = pos && r.st = .queued).length

/-- A counter of a plain's live P set increased (R592, R596). -/
def State.addP (s : State) (p word n : Nat) : State :=
  let ws := storeGet (fun _ => List.replicate 32 (0 : W32)) s.cntLive (4 * p + 3)
  { s with cntLive := storePut (fun _ => List.replicate 32 (0 : W32)) s.cntLive (4 * p + 3) (ws.set word (satAdd (wordAt ws word) n)) }

/-- The PCC goes on to the command after the one it holds (R180). -/
def State.advance (s : State) (p : Nat) : State :=
  let x := s.plain p
  let ws := x.fetched.getD []
  (s.setPlain p { x with fetched := none, hold := .none, pos := x.pos + descBytes (wordAt ws 0), lastTag := hdrTag ws,
                         pcc := .issuing, next := x.next + 1 }).addP p 6 1

/-- The (handle, generation) references a command takes at issue (R348). -/
def State.takeRefs (s : State) (trefs : List Tref) : List (Nat × Nat) :=
  ((trefs.filter fun t => t.cmp).map fun t => (t.handle, s.handleGen t.handle)).eraseDups

/-- A checked tile command placed in the queues of its cores, or held while one of them is full (R180); tile states change (R100). -/
def State.place (s : State) (p m : Nat) (runs : List TileRun) (gens : List (Nat × Nat)) : State :=
  let x := s.plain p
  let ws := x.fetched.getD []
  let pos := maskPos (hdrMask ws)
  if pos.any fun q => 8 ≤ s.queueLen p q then s.setPlain p { x with hold := .issueFull }
  else
    let s := pos.foldl (fun s q => runs.foldl (fun s r =>
      r.freed.foldl (fun s k => s.setOpen r.basin (16 * p + q) (r.base + k) 1 false) (s.setOpen r.basin (16 * p + q) r.base r.count true)) s) s
    let i : Issued := ⟨x.next, ws, (s.ctx m).step, x.pos + descBytes (wordAt ws 0), x.prologue,
      pos.map fun q => ⟨q, .queued, [], []⟩, gens⟩
    (s.setPlain p { x with issued := x.issued ++ [i] }).advance p

/-- A tile command checked and issued (R142, R180); `extra` are references it takes beside those of its tensor references (R363). -/
def State.issueTile (s : State) (p : Nat) (d : TileSpec) (extra : List (Nat × Nat) := []) : State :=
  match s.owner p with
  | none => s
  | some m =>
    let ws := (s.plain p).fetched.getD []
    match s.tileCheck p m ws d with
    | some (code, pos, tile) => s.issueFaultCore p (16 * p + pos) code tile (if code = 0x0A02 then hdrDoneObj ws else tile.getD 0)
    | none => s.place p m d.tiles (s.takeRefs d.handles ++ extra)

/-- Whether a break matches a command of context `m` (R619). -/
def State.breakMatch (s : State) (m : Nat) (ws : Words) (point : Bool) : Bool :=
  let c := s.reg 0x98040
  bit c 31 && bit c 30 = point && bits c 3 0 = m &&
  (wordAt ws 1 ^^^ s.reg 0x98044) &&& s.reg 0x98048 = 0 && (! bit c 29 || (s.ctx m).step = s.reg 0x9804C)

/-- A break that matches clears its EN and stops the device (R611, R619). -/
def State.takeBreak (s : State) : State := (s.setBits 0x98040 0x80000000#32 0).freeze 2 0

/-- A break after the end of a command (R619). -/
def State.breakAfter (s : State) (m : Nat) (ws : Words) : State := if s.breakMatch m ws true then s.takeBreak else s

/-- The device runs its cores and PCCs (R612). -/
def State.running (s : State) : Bool := s.dbg = .running

/-- Whether a PCC of context `m` issues nothing: a per-context reset waits (R694), or the plain has raised AGE_FLOOR (R579). -/
def State.barred (s : State) (p m : Nat) : Bool := s.resetting m || bit (s.reg 0x90004) (16 + p)

/-- A PCC reaches the command it has fetched, if that command has TYPE `type` and nothing holds the PCC (R180); a break before issue stops
the device instead (R619). Otherwise nothing happens (DESIGN CHOICE, log entry 9). -/
def State.reach (s : State) (p type : Nat) (k : State → Nat → Words → State) : State :=
  let x := s.plain p
  match x.fetched, s.owner p with
  | some ws, some m =>
    if s.running && ! s.barred p m && x.pcc = .issuing && x.hold = .none && hdrType ws = type then
      if s.breakMatch m ws false then s.takeBreak else k s m ws
    else s
  | _, _ => s

/-- A range of Field bytes reaches past the end (FIELD_RANGE of R142). -/
def pastField (off len : Nat) : Bool := off + len > 0x600000

/-- Whether two ranges overlap. -/
def overlap (a n b k : Nat) : Bool := a < b + k && b < a + n && n ≠ 0 && k ≠ 0

/-- Accumulator and Basin tiles and Field ranges that a command uses in a core (R94). -/
structure Foot where
  accR   : Nat
  accW   : Nat
  basinR : Nat
  basinW : Nat
  fieldR : List (Nat × Nat)
  fieldW : List (Nat × Nat)
  deriving DecidableEq, Repr

/-- Nothing used. -/
def Foot.none : Foot := ⟨0, 0, 0, 0, [], []⟩

/-- The bits of a run of tiles. -/
def runBits (base n : Nat) : Nat := 2 ^ base * (2 ^ n - 1)

/-- A run of tiles written (and read). -/
def Foot.tilesW (f : Foot) (basin : Bool) (base n : Nat) : Foot :=
  if basin then { f with basinW := f.basinW ||| runBits base n } else { f with accW := f.accW ||| runBits base n }
def Foot.tilesR (f : Foot) (basin : Bool) (base n : Nat) : Foot :=
  if basin then { f with basinR := f.basinR ||| runBits base n } else { f with accR := f.accR ||| runBits base n }

/-- A Field range read or written. -/
def Foot.read (f : Foot) (a n : Nat) : Foot := { f with fieldR := (a, n) :: f.fieldR }
def Foot.wrote (f : Foot) (a n : Nat) : Foot := { f with fieldW := (a, n) :: f.fieldW }

/-- A tensor read or written, where it lies in Field: every range of it (R94). -/
def Foot.tensorR (f : Foot) (t : Tref) : Foot := if t.field then { f with fieldR := t.fieldRanges ++ f.fieldR } else f
def Foot.tensorW (f : Foot) (t : Tref) : Foot := if t.field then { f with fieldW := t.fieldRanges ++ f.fieldW } else f

/-- Whether two lists of ranges meet. -/
def rangesMeet (a b : List (Nat × Nat)) : Bool := a.any fun x => b.any fun y => overlap x.1 x.2 y.1 y.2

/-- Whether an earlier and a later command depend on one another through a resource (R94). -/
def Foot.conflicts (a b : Foot) : Bool :=
  (a.accW &&& (b.accR ||| b.accW)) ≠ 0 || (a.accR &&& b.accW) ≠ 0 || (a.basinW &&& (b.basinR ||| b.basinW)) ≠ 0 ||
  (a.basinR &&& b.basinW) ≠ 0 || rangesMeet a.fieldW (b.fieldR ++ b.fieldW) || rangesMeet a.fieldR b.fieldW

/-- What a command does in a core when it starts: why it stops, the tiles, the accumulator tiles whose contents afterwards are stated nowhere (free
values), the runs of device memory it reads, the masked bytes of memory and Field, the HOLD masks, the Field
ranges left with staged blocks (their contents afterwards are stated nowhere: free values, log entry 13), the saturating additions to histogram words, the additions to statistics lanes, the counters of R596, and what later events of it need. -/
structure Eff where
  fault  : Option Nat
  tiles  : List (Bool × Nat × Words)
  freeTiles : List Nat
  reads  : List (Nat × Nat)
  writes : List (Nat × Byte × Byte)
  field  : List (Nat × Byte × Byte)
  holds  : List (Bool × Nat × Nat)
  scratch : List (Nat × Nat)
  hist   : List (Nat × Nat)
  stats  : List (Nat × W32)
  ctr    : Words
  keep   : Words
  deriving DecidableEq, Repr

/-- No effect. -/
def Eff.none : Eff := ⟨Option.none, [], [], [], [], [], [], [], [], [], List.replicate 12 0, []⟩

/-- The twelve counters of a record from numbers (R593, R596). -/
def ctrWords (l : List Nat) : Words := (List.range 12).map fun i => BitVec.ofNat 32 (min (2 ^ 32 - 1) (l.getD i 0))

end Sys2Proof.Machine
end

