-- ==== Sys2Proof/Machine/Matmul.lean ====
section
/-! DEFINITION. MATMUL and its predictive mode (R48 to R58, R124 to R130, R215 to R223), and PREFETCH (R209 to R213). -/

namespace Sys2Proof.Machine

/-- A MATMUL descriptor read (R124); WGRAD has the same words and its own fields beside (R298). -/
structure Mm where
  shape  : Nat
  dest   : Bool
  base   : Nat
  clear  : Bool
  rev    : Bool
  ta     : Bool
  tb     : Bool
  spec   : Nat
  steps  : Nat
  aRow   : Nat
  aK     : Nat
  bK     : Nat
  bCol   : Nat
  aStr   : Nat
  bStr   : Nat
  stageA : Nat
  stageB : Nat
  slotA  : Nat
  slotB  : Nat
  zmap   : Nat
  a      : Tref
  b      : Tref

/-- The fields of a MATMUL (R124). -/
def mmOf (ws : Words) : Mm :=
  let w4 := wordAt ws 4
  let w5 := wordAt ws 5
  { shape := bits w4 3 0, dest := bit w4 8, base := bits w5 23 16, clear := bit w4 10, rev := bit w4 11, ta := bit w4 12,
    tb := bit w4 13, spec := bits w4 17 16, steps := bits w5 15 0, aRow := (wordAt ws 6).toNat, aK := (wordAt ws 7).toNat,
    bK := (wordAt ws 8).toNat, bCol := (wordAt ws 9).toNat, aStr := bits (wordAt ws 10) 31 16, bStr := bits (wordAt ws 10) 15 0,
    stageA := (wordAt ws 11).toNat, stageB := (wordAt ws 12).toNat, slotA := bits (wordAt ws 13) 7 0,
    slotB := bits (wordAt ws 13) 15 8, zmap := dword ws 14, a := trefAt ws 16, b := trefAt ws 24 }

/-- Rows and columns of op(X). -/
def opRows (t : Tref) (tr : Bool) : Nat := if tr then t.cols else t.rows
def opCols (t : Tref) (tr : Bool) : Nat := if tr then t.rows else t.cols

/-- M ÷ 64 and N ÷ 64 of the shape. -/
def Mm.mt (d : Mm) : Nat := ((shapeTiles d.shape).getD (1, 1)).1
def Mm.nt (d : Mm) : Nat := ((shapeTiles d.shape).getD (1, 1)).2

/-- The row and column origins, in blocks, of the core of rank `r` (R128). -/
def Mm.i0 (d : Mm) (r : Nat) : Nat := d.aRow + r * d.aStr
def Mm.j0 (d : Mm) (r : Nat) : Nat := d.bCol + r * d.bStr

/-- The valid extents of R126. -/
def Mm.mv (d : Mm) (r : Nat) : Nat := min (64 * d.mt) (opRows d.a d.ta - 64 * d.i0 r)
def Mm.nv (d : Mm) (r : Nat) : Nat := min (64 * d.nt) (opCols d.b d.tb - 64 * d.j0 r)
def Mm.kv (d : Mm) : Nat := min (64 * d.steps) (min (opCols d.a d.ta - 64 * d.aK) (opRows d.b d.tb - 64 * d.bK))

/-- An FP8 pairing or an FP32 operand breaks R54. -/
def fmtMix (a b : Tref) : Bool := a.fp8 != b.fp8 || a.fmt = 0 || b.fmt = 0

/-- The Field ranges of the staging slots; none for an operand that lies in Field. -/
def stageRange (t : Tref) (stage slots : Nat) : Nat × Nat := if t.field then (0, 0) else (stage, slots * blockBytes t.fmt)

/-- A staging offset breaks its alignment, or is given for an operand in Field (R702, R703). -/
def stageBad (t : Tref) (stage : Nat) : Bool := if t.field then stage ≠ 0 else stage % 4096 ≠ 0

/-- The tiles of a MATMUL (R101). -/
def Mm.tiles (d : Mm) : List TileRun := [⟨d.dest, d.base, d.mt * d.nt, ! d.clear, []⟩]

/-- The invalid fields of order 2 that MATMUL and WGRAD share (R125, R126, R142, R702, R703). -/
def Mm.badCommon (d : Mm) (r : Nat) : Bool :=
  (shapeTiles d.shape).isNone || d.steps = 0 ||
  stageBad d.a d.stageA || stageBad d.b d.stageB ||
  (! d.a.field && d.slotA < 2 * d.mt) || (! d.b.field && d.slotB < 2 * d.nt) ||
  d.a.auxBad || d.b.auxBad || d.mv r < 1 || d.nv r < 1 || d.kv < 1

/-- FIELD_RANGE of MATMUL and WGRAD: staging or operands past the end, or staging regions that overlap. -/
def Mm.fieldBad (d : Mm) : Bool :=
  let sa := stageRange d.a d.stageA d.slotA
  let sb := stageRange d.b d.stageB d.slotB
  pastField sa.1 sa.2 || pastField sb.1 sb.2 || d.a.pastField || d.b.pastField || overlap sa.1 sa.2 sb.1 sb.2

/-- The issue checks of a MATMUL (R142, R215). -/
def mmSpec (ws : Words) : TileSpec :=
  let d := mmOf ws
  let dest := bits (wordAt ws 4) 9 8
  { reserved := hdrReserved ws || anyBits ws [(4, 0xFFFCC0F0), (5, 0xFF000000), (13, 0xFFFF0000)] || d.a.reserved || d.b.reserved,
    invalid := fun r => hdrLen ws ≠ 2 || 2 ≤ dest || 2 ≤ d.spec || d.badCommon r ||
      (d.spec = 0 && d.zmap ≠ 0) || (d.spec = 1 && (dest ≠ 0 || ! d.clear || d.zmap = 0)),
    trefs := [d.a, d.b], handles := [d.a, d.b], hist := false, mix := fmtMix d.a d.b, chain := false, fieldBad := fun _ => d.fieldBad, tiles := d.tiles }

/-- The k-steps in the command's order (R51). -/
def Mm.order (d : Mm) : List Nat := if d.rev then (List.range d.steps).reverse else List.range d.steps

/-- Element (i, k) of op(X), in elements. -/
def State.opElem (s : State) (c : Nat) (t : Tref) (tr : Bool) (gens : List (Nat × Nat)) (i k : Nat) : FVal :=
  if tr then s.elem c t gens k i else s.elem c t gens i k

/-- The pairs of factors of one k-step of output element (i, j), padding as zeros (R127, R128). -/
def State.mmPairs (s : State) (c : Nat) (d : Mm) (r : Nat) (gens : List (Nat × Nat)) (ks i j : Nat) : List (FVal × FVal) :=
  (List.range 64).map fun k =>
    let kk := ks * 64 + k
    if i ≥ d.mv r || j ≥ d.nv r || kk ≥ d.kv then (vzero, vzero)
    else (s.opElem c d.a d.ta gens (d.i0 r * 64 + i) (d.aK * 64 + kk), s.opElem c d.b d.tb gens (d.bK * 64 + kk) (d.j0 r * 64 + j))

/-- An output element after the k-steps that `skip` does not skip for its block row (R49, R128, R218). -/
def State.mmElem (s : State) (c : Nat) (d : Mm) (r : Nat) (gens : List (Nat × Nat)) (skip : Nat → Nat → Bool) (start : W32) (i j : Nat) : W32 :=
  d.order.foldl (fun acc ks => if skip ks (i / 64) then acc else accChain acc (s.mmPairs c d r gens ks i j)) start

/-- One output tile, at block row and column (tr, tc) of the shape (R103). -/
def State.mmTile (s : State) (c : Nat) (d : Mm) (r : Nat) (gens : List (Nat × Nat)) (skip : Nat → Nat → Bool) (clear : Bool) (tr tc : Nat) : Words :=
  (List.range 4096).map fun e =>
    s.mmElem c d r gens skip (if clear then f32zero else s.tileElem d.dest c (d.base + tr * d.nt + tc) e) (tr * 64 + e / 64) (tc * 64 + e % 64)

/-- The stored blocks of A and of B that a k-step reads: (block row, block column) as stored (R124). -/
def Mm.aBlock (d : Mm) (r ks rb : Nat) : Nat × Nat := if d.ta then (d.aK + ks, d.i0 r + rb) else (d.i0 r + rb, d.aK + ks)
def Mm.bBlock (d : Mm) (r ks cb : Nat) : Nat × Nat := if d.tb then (d.j0 r + cb, d.bK + ks) else (d.bK + ks, d.j0 r + cb)

/-- The blocks of A and of B that the core of rank `r` reads over every k-step, for a list of (k-step, block row) and of (k-step, block column). -/
def Mm.aBlocks (d : Mm) (r : Nat) (us : List (Nat × Nat)) : List (Nat × Nat) := us.map fun u => d.aBlock r u.1 u.2
def Mm.bBlocks (d : Mm) (r : Nat) (us : List (Nat × Nat)) : List (Nat × Nat) := us.map fun u => d.bBlock r u.1 u.2

/-- Every k-step with every one of `n` block rows or columns that a test keeps. -/
def Mm.over (d : Mm) (n : Nat) (p : Nat → Nat → Bool) : List (Nat × Nat) :=
  (List.range d.steps).flatMap fun ks => ((List.range n).filter fun x => p ks x).map fun x => (ks, x)

/-- What a MATMUL or WGRAD reads of A and of B: `ua` and `ub` say for each rank of the mask what it uses of them (R119, R701). -/
def Mm.fetches (d : Mm) (n r : Nat) (ua ub : Nat → List (Nat × Nat)) : List Fetch :=
  [⟨d.a, d.aBlocks r (ua r), d.aStr = 0, if d.aStr = 0 then d.aBlocks r (unionOf n ua) else []⟩,
   ⟨d.b, d.bBlocks r (ub r), d.bStr = 0, if d.bStr = 0 then d.bBlocks r (unionOf n ub) else []⟩]

/-- Whether every element of B of a k-step that the core uses is finite (R218). -/
def State.bFinite (s : State) (c : Nat) (d : Mm) (r : Nat) (gens : List (Nat × Nat)) (ks : Nat) : Bool :=
  (List.range 64).all fun k => ks * 64 + k ≥ d.kv || (List.range (d.nv r)).all fun j =>
    match s.opElem c d.b d.tb gens (d.bK * 64 + ks * 64 + k) (d.j0 r * 64 + j) with
    | .fin _ _ _ => true
    | _ => false

/-- The size of one map of a pair, rounded up to 64 bytes (R216). -/
def Mm.mapBytes (d : Mm) : Nat := roundUp 64 (ceilDiv d.a.blocks 8)

/-- A map bit of the block of A of a k-step and block row (R216, R220). -/
def State.mapBit (s : State) (map : Nat) (t : Tref) (b : Nat × Nat) : Bool :=
  let i := b.1 * t.stride + b.2
  (s.byte (map + i / 8)).getLsbD (i % 8)

/-- The blocks of A inside the tensor that the core uses: (k-step, block row). -/
def Mm.used (d : Mm) (r : Nat) : List (Nat × Nat) :=
  (List.range d.steps).flatMap fun ks => ((List.range d.mt).filter fun rb =>
    let b := d.aBlock r ks rb
    d.a.inside b.1 b.2).map fun rb => (ks, rb)

/-- The reads of map bytes for a list of blocks. -/
def Mm.mapRuns (d : Mm) (map r : Nat) : List (Nat × Nat) :=
  ((d.used r).map fun u => (map + (let b := d.aBlock r u.1 u.2; b.1 * d.a.stride + b.2) / 8, 1)).eraseDups

/-- A block that was predicted zero as a word, with bit 31 set for one that was kept, and back (R218). -/
def skipWord (u : Nat × Nat) : W32 := BitVec.ofNat 32 (u.1 * 8 + u.2)
def skipOf (w : W32) : Nat × Nat := (bits w 30 0 / 8, w.toNat % 8)

/-- How many cores a command names, and the core of each rank, from one of its cores (R122). -/
def rankCount (ws : Words) : Nat := (maskPos (hdrMask ws)).length
def coreOf (ws : Words) (c r : Nat) : Nat := c / 16 * 16 + (maskPos (hdrMask ws)).getD r 0

/-- The blocks of A that the core of rank `r` finds predicted zero, and those of them it must keep for a B that is not finite (R218). -/
def State.mmPredicted (s : State) (d : Mm) (r : Nat) : List (Nat × Nat) :=
  if d.spec = 1 then (d.used r).filter fun u => s.mapBit d.zmap d.a (d.aBlock r u.1 u.2) else []
def State.mmKept (s : State) (c : Nat) (d : Mm) (r : Nat) (gens : List (Nat × Nat)) : List (Nat × Nat) :=
  (s.mmPredicted d r).filter fun u => ! s.bFinite c d r gens u.1
def State.mmSkipped (s : State) (c : Nat) (d : Mm) (r : Nat) (gens : List (Nat × Nat)) : List (Nat × Nat) :=
  (s.mmPredicted d r).filter fun u => s.bFinite c d r gens u.1

/-- What a MATMUL does in a core when it starts (R128, R218). A predictive one leaves its predicted blocks in `keep`. -/
def State.mmStart (s : State) (m c r : Nat) (ws : Words) (gens : List (Nat × Nat)) : Eff :=
  let d := mmOf ws
  let kept := s.mmKept c d r gens
  let skipped := s.mmSkipped c d r gens
  let skip := fun ks rb => skipped.contains (ks, rb)
  let fs := d.fetches (rankCount ws) r (fun k => let sk := if k = r then skipped else s.mmSkipped (coreOf ws c k) d k gens
      d.over d.mt fun ks rb => ! sk.contains (ks, rb)) fun _ => d.over d.nt fun _ _ => true
  let maps := if d.spec = 1 then d.mapRuns d.zmap r else []
  let fault := firstFault (s.readFault m maps :: fs.map fun f => s.tensorFault m c f.t gens f.own)
  let (fetched, saved, zf, ex) := fetchCounts fs r
  { Eff.none with
    fault := fault
    reads := maps ++ fetchRunsOf fs r
    tiles := (List.range d.mt).flatMap fun tr => (List.range d.nt).map fun tc =>
      (d.dest, d.base + tr * d.nt + tc, s.mmTile c d r gens skip d.clear tr tc)
    holds := if d.clear then (List.range (d.mt * d.nt)).map fun k => (d.dest, d.base + k, 0) else []
    scratch := [stageRange d.a d.stageA d.slotA, stageRange d.b d.stageB d.slotB]
    ctr := ctrWords [fetched, saved, zf, ex, skipped.length, 0, 0, kept.length, 0, 0, 0, 0]
    keep := skipped.map skipWord ++ kept.map fun u => skipWord u ||| 0x80000000#32 }

/-- The block rows that a core computes again: those with a block skipped whose current bit is 0 (R220). -/
def State.mmWrong (s : State) (d : Mm) (r : Nat) (skipped : List (Nat × Nat)) : List (Nat × Nat) :=
  skipped.filter fun u => ! s.mapBit (d.zmap + d.mapBytes) d.a (d.aBlock r u.1 u.2)
def Mm.rowsOf (d : Mm) (us : List (Nat × Nat)) : List Nat := (List.range d.mt).filter fun rb => us.any fun u => u.2 = rb

/-- What the check of a predictive MATMUL does in a core (R220, R223): block rows with a skipped block whose current bit is 0 are recomputed. What was
predicted is what the start found (`keep`). -/
def State.mmCheck (s : State) (m c r : Nat) (ws : Words) (gens : List (Nat × Nat)) (keep ctr : Words) : Eff :=
  let d := mmOf ws
  let cur := d.zmap + d.mapBytes
  let skipped := (keep.filter fun w => ! bit w 31).map skipOf
  let predicted := keep.map skipOf
  let wrong := s.mmWrong d r skipped
  let missed := (d.used r).filter fun u => s.mapBit cur d.a (d.aBlock r u.1 u.2) && ! predicted.contains u
  let rows := d.rowsOf wrong
  let rowsFor := fun k => if k = r then rows else d.rowsOf (s.mmWrong d k (s.mmSkipped (coreOf ws c k) d k gens))
  let fs := d.fetches (rankCount ws) r (fun k => let rk := rowsFor k; d.over d.mt fun _ rb => rk.contains rb)
    fun k => if rowsFor k = [] then [] else d.over d.nt fun _ _ => true
  let fault := firstFault (s.readFault m (d.mapRuns cur r) :: fs.map fun f => s.tensorFault m c f.t gens f.own)
  let (fetched, saved, zf, ex) := fetchCounts fs r
  let old := fun i => (wordAt ctr i).toNat
  { Eff.none with
    fault := fault
    reads := d.mapRuns cur r ++ fetchRunsOf fs r
    tiles := rows.flatMap fun tr => (List.range d.nt).map fun tc =>
      (d.dest, d.base + tr * d.nt + tc, s.mmTile c d r gens (fun _ _ => false) true tr tc)
    scratch := [stageRange d.a d.stageA d.slotA, stageRange d.b d.stageB d.slotB]
    ctr := ctrWords [old 0 + fetched, old 1 + saved, old 2 + zf, old 3 + ex, old 4, wrong.length, missed.length, old 7,
      rows.length * d.nt, 0, 0, 0]
    keep := keep }

/-- The masked map bytes a predictive MATMUL writes at commit (R221). -/
def State.mmCommit (s : State) (r : Nat) (ws : Words) : List (Nat × Byte × Byte) :=
  let d := mmOf ws
  (d.used r).map fun u =>
    let b := d.aBlock r u.1 u.2
    let i := b.1 * d.a.stride + b.2
    let v : Byte := if s.mapBit (d.zmap + d.mapBytes) d.a b then 0xFF#8 else 0
    (d.zmap + i / 8, v, BitVec.ofNat 8 (2 ^ (i % 8)))

/-- What a MATMUL uses in a core (R94). -/
def mmFoot (ws : Words) : Foot :=
  let d := mmOf ws
  let sa := stageRange d.a d.stageA d.slotA
  let sb := stageRange d.b d.stageB d.slotB
  ((((Foot.none.tilesW d.dest d.base (d.mt * d.nt)).tensorR d.a).tensorR d.b).wrote sa.1 sa.2).wrote sb.1 sb.2

/-- The PCC checks and issues a MATMUL (R128, R142). -/
def execMatmul (p : Fin 16) (s : State) : Result := .next (s.reach p 0x01 fun s _ ws => s.issueTile p (mmSpec ws))

/-! ### PREFETCH -/

/-- The fields of a PREFETCH (R209). -/
structure Pf where
  stride : Nat
  rows   : Nat
  cols   : Nat
  row    : Nat
  col    : Nat
  dest   : Nat
  src    : Tref

def pfOf (ws : Words) : Pf :=
  { stride := bits (wordAt ws 4) 15 0, rows := bits (wordAt ws 5) 31 16, cols := bits (wordAt ws 5) 15 0, row := (wordAt ws 6).toNat,
    col := (wordAt ws 7).toNat, dest := (wordAt ws 8).toNat, src := trefAt ws 16 }

/-- The issue checks of a PREFETCH (R142, R209, R212, R702). It copies compressed blocks as stored and makes no handle check (R349). -/
def pfSpec (ws : Words) : TileSpec :=
  let d := pfOf ws
  { reserved := hdrReserved ws || anyBits ws [(4, 0xFFFE0000)] || anyWords ws 9 16 || anyWords ws 24 32 || d.src.reserved,
    invalid := fun _ => hdrLen ws ≠ 2 || d.rows = 0 || d.cols = 0 || d.dest % 4096 ≠ 0 || d.src.field || d.src.auxBad,
    trefs := [d.src], handles := [], hist := false, mix := false, chain := false,
    fieldBad := fun _ => pastField d.dest (d.rows * d.cols * blockBytes d.src.fmt), tiles := [] }

/-- The bytes of a block as a fetch delivers them: elements past the edge are zero; a compressed block as stored (R111, R112, R210). -/
def State.fetchBlock (s : State) (c : Nat) (t : Tref) (br bc : Nat) : Bytes :=
  if ! t.inside br bc then List.replicate (blockBytes t.fmt) 0
  else
    let a := t.blockAddr (br * t.stride + bc)
    let raw := s.locBytes c t.field a (blockBytes t.fmt)
    if t.cmp then raw
    else
      (List.range (blockBytes t.fmt)).map fun k =>
        let i := k / rowBytes t.fmt
        let keepBits := if i < t.validRows br then t.validCols bc * elemBits t.fmt - k % rowBytes t.fmt * 8 else 0
        let v := raw.getD k 0
        if keepBits ≥ 8 then v else v &&& BitVec.ofNat 8 (2 ^ keepBits - 1)

/-- What a PREFETCH does in a core (R210, R211, R701). -/
def State.pfStart (s : State) (m c r : Nat) (ws : Words) : Eff :=
  let d := pfOf ws
  let at_ := fun a k => (d.row + r * d.stride + a, d.col + k)
  let bs := (List.range d.rows).flatMap fun a => (List.range d.cols).map fun k => at_ a k
  let fs := [(⟨d.src, bs, d.stride = 0, bs⟩ : Fetch)]
  let (f, sv, zf, _) := fetchCounts fs r
  { Eff.none with
    fault := s.readFault m (bs.flatMap fun b => d.src.fetchRuns b.1 b.2)
    reads := if d.stride = 0 && r ≠ 0 then [] else bs.flatMap fun b => d.src.fetchRuns b.1 b.2
    field := (List.range d.rows).flatMap fun a => (List.range d.cols).flatMap fun k =>
      let b := at_ a k
      wholeBytes (d.dest + (a * d.cols + k) * blockBytes d.src.fmt) (s.fetchBlock c d.src b.1 b.2)
    ctr := ctrWords [f, sv, zf] }

/-- What a PREFETCH uses in a core (R213). -/
def pfFoot (ws : Words) : Foot :=
  let d := pfOf ws
  Foot.none.wrote d.dest (d.rows * d.cols * blockBytes d.src.fmt)

/-- The PCC checks and issues a PREFETCH (R210, R212). -/
def execPrefetch (p : Fin 16) (s : State) : Result := .next (s.reach p 0x1F fun s _ ws => s.issueTile p (pfSpec ws))

end Sys2Proof.Machine
end

