-- ==== Sys2Proof/Machine/Drain.lean ====
section
/-! DEFINITION. DRAIN: the element-wise chain, the optimizer operations, conversion, compression, zero maps and statistics (R131 to R141, R308 to
R315, R362, R364). -/

namespace Sys2Proof.Machine

/-- The fields of a DRAIN (R131). -/
structure Dr where
  base   : Nat
  len    : Nat
  stat   : Bool
  zmapEn : Bool
  sr     : Bool
  free   : Bool
  basin  : Bool
  shape  : Nat
  row    : Nat
  col    : Nat
  cStr   : Nat
  rStr   : Nat
  slot   : Nat
  zmap   : Nat
  out    : Tref
  side0  : Tref
  side1  : Tref
  vec0   : Nat
  vec1   : Nat
  consts : Words
  ops    : Words

/-- The fields of a DRAIN (R131). -/
def drOf (ws : Words) : Dr :=
  let w4 := wordAt ws 4
  { base := bits w4 23 16, len := bits w4 15 12, stat := bit w4 8, zmapEn := bit w4 7, sr := bit w4 6, free := bit w4 5, basin := bit w4 4,
    shape := bits w4 3 0, row := (wordAt ws 5).toNat, col := (wordAt ws 6).toNat, cStr := bits (wordAt ws 7) 31 16,
    rStr := bits (wordAt ws 7) 15 0, slot := bits (wordAt ws 8) 15 0, zmap := dword ws 10, out := trefAt ws 16, side0 := trefAt ws 24,
    side1 := trefAt ws 32, vec0 := (wordAt ws 40).toNat, vec1 := (wordAt ws 41).toNat,
    consts := (List.range 4).map fun i => wordAt ws (44 + i), ops := (List.range 8).map fun i => wordAt ws (48 + i) }

/-- Rows and columns of the shape, in tiles. -/
def Dr.mt (d : Dr) : Nat := ((shapeTiles d.shape).getD (1, 1)).1
def Dr.nt (d : Dr) : Nat := ((shapeTiles d.shape).getD (1, 1)).2

/-- Opcode and ARG of a chain word (R132). -/
def opCode (w : W32) : Nat := bits w 7 0
def opArg (w : W32) : Nat := bits w 11 8

/-- The chain (R133). -/
def Dr.chain (d : Dr) : Words := d.ops.take d.len

/-- The largest ARG of an opcode; none for an opcode that is not in R133 or R309. -/
def maxArg (op : Nat) : Option Nat :=
  if op ∈ [0x01, 0x02, 0x03, 0x04, 0x20] then some 3
  else if op ∈ [0x05, 0x28] then some 2
  else if op ∈ [0x08, 0x09, 0x0A, 0x0B, 0x10, 0x11, 0x40, 0x48, 0x50] then some 1
  else if op ∈ [0x18, 0x19, 0x1A, 0x1B, 0x1C] then some 0 else none

/-- Whether a chain word names a known operation with an ARG in its range. -/
def opOk (w : W32) : Bool :=
  match maxArg (opCode w) with
  | some a => opArg w ≤ a
  | none => false

/-- Whether an operation updates the weights, and whether it reads a parameter block (R309, R312). -/
def opUpdates (w : W32) : Bool := opCode w = 0x48 || opCode w = 0x50
def opParams (w : W32) : Bool := opCode w = 0x40 || opUpdates w

/-- Whether the DRAIN is an optimizer DRAIN (R312), and whether it is an AdamW one. -/
def Dr.opt (d : Dr) : Bool := d.chain.any opUpdates
def Dr.adamw (d : Dr) : Bool := d.chain.any fun w => opCode w = 0x50

/-- Whether the chain names side tensor `k`, by itself or through an optimizer operation (R134, R312). -/
def Dr.names (d : Dr) (k : Nat) : Bool :=
  d.chain.any fun w => ((opCode w = 0x10 || opCode w = 0x11) && opArg w = k) || (opUpdates w && (k = 0 || opCode w = 0x50))

def Dr.side (d : Dr) (k : Nat) : Tref := if k = 0 then d.side0 else d.side1
def Dr.vec (d : Dr) (k : Nat) : Nat := if k = 0 then d.vec0 else d.vec1

/-- The reference of an unused tensor. -/
def Tref.zero (t : Tref) : Bool := t = ⟨0, 0, 0, false, 0, 0, 0, false⟩

/-- A side tensor that an optimizer DRAIN accepts (R312). -/
def Dr.sideOk (d : Dr) (t : Tref) : Bool := (t.fmt = 0 || t.fmt = 1) && t.rows = d.out.rows && t.cols = d.out.cols

/-- CHAIN_INVALID of R132, R133, R134, R309 and R312. A CHAIN_LEN above 8 is one of them (DEDUCED, log entry 12). -/
def Dr.chainBad (d : Dr) : Bool :=
  d.len > 8 || (d.ops.drop d.len).any (fun w => w ≠ 0) || d.chain.any (fun w => ! opOk w) ||
  d.chain.any (fun w => (opCode w = 0x10 || opCode w = 0x11) && (d.side (opArg w)).zero) ||
  d.chain.any (fun w => opParams w && d.vec (opArg w) % 64 ≠ 0) ||
  (d.chain.dropLast).any opUpdates ||
  (d.opt && (! (d.out.fmt = 0 || d.out.fmt = 1) || d.side0.zero || ! d.sideOk d.side0 ||
    (if d.adamw then d.side1.zero || ! d.sideOk d.side1 else ! d.side1.zero)))

/-- The Field ranges of vectors and parameter blocks that the chain reads (R133, R308). -/
def Dr.vecRanges (d : Dr) : List (Nat × Nat) :=
  d.chain.filterMap fun w =>
    let op := opCode w
    if op = 0x08 || op = 0x09 then some (d.vec (opArg w), 256 * d.nt)
    else if op = 0x0A || op = 0x0B then some (d.vec (opArg w), 256 * d.mt)
    else if opParams w then some (d.vec (opArg w), 64) else none

/-- The statistics slots of a context (R335), and the base of its table (R334). -/
def State.statSlots (s : State) (m : Nat) : Nat := bits (s.reg (offSch m 0x20)) 15 0
def State.statBase (s : State) (m : Nat) : Nat := s.pairVal (offSch m 0x18)

/-- The issue checks of a DRAIN (R132, R142, R312, R702, R703). -/
def State.drSpec (s : State) (m : Nat) (ws : Words) : TileSpec :=
  let d := drOf ws
  let slots := s.statSlots m
  { reserved := hdrReserved ws || anyBits ws [(4, 0xFF000E00), (8, 0xFFFF0000)] || wordAt ws 9 ≠ 0 || anyWords ws 12 16 || anyWords ws 42 44 ||
      anyWords ws 56 64 || d.ops.any (fun w => bits w 31 12 ≠ 0) || d.out.reserved || d.side0.reserved || d.side1.reserved,
    invalid := fun _ => hdrLen ws ≠ 4 || (shapeTiles d.shape).isNone ||
      (d.stat && d.slot + (if d.opt then 2 else 0) ≥ slots) || d.vec0 % 4 ≠ 0 || d.vec1 % 4 ≠ 0 || (! d.zmapEn && d.zmap ≠ 0) ||
      (! d.names 0 && ! d.side0.zero) || (! d.names 1 && ! d.side1.zero) || d.out.auxBad || d.side0.auxBad || d.side1.auxBad,
    trefs := d.out :: [d.side0, d.side1].filter fun t => ! t.zero,
    handles := d.out :: [d.side0, d.side1].filter fun t => ! t.zero,
    hist := d.out.cmp && d.out.histEn, mix := false, chain := d.chainBad,
    fieldBad := fun _ => d.out.pastField || d.side0.pastField || d.side1.pastField || d.vecRanges.any fun r => pastField r.1 r.2,
    tiles := [⟨d.basin, d.base, d.mt * d.nt, true, if d.free then List.range (d.mt * d.nt) else []⟩] }

/-- A parameter block and the scalars of R310. -/
structure OptP where
  lr    : W32
  beta1 : W32
  omb1  : W32
  beta2 : W32
  omb2  : W32
  eps   : W32
  wd    : W32
  f     : W32
  bc1   : W32
  bc2   : W32

/-- The parameter block at a Field offset in step `n` (R308, R310). -/
def State.optParams (s : State) (c off : Nat) (n : W32) : OptP :=
  let w := fun i => s.fieldWord c (off + 4 * i)
  let t : W32 := n - w 9 + 1
  let tf := toF32 (.fin false t.toNat 0)
  let bc := fun l => frecip (fsub f32one (fexp2 (fmul tf l)))
  ⟨w 0, w 1, w 2, w 3, w 4, w 5, w 6, fmin f32one (fmul (w 10) (frsqrt (w 11))), bc (w 7), bc (w 8)⟩

/-- What a tile command knows of its run: the core, the references it holds, the step, the seed, and layer and operator ID (R84). -/
structure RunEnv where
  core : Nat
  gens : List (Nat × Nat)
  step : W32
  seed : W64
  tag  : W32

/-- The environment of a command of context `m` in core `c`. -/
def State.runEnv (s : State) (m c : Nat) (ws : Words) (gens : List (Nat × Nat)) : RunEnv :=
  ⟨c, gens, (s.ctx m).step, (s.ctx m).seed, wordAt ws 1⟩

/-- The random word of an element of a destination block (R84, R85). -/
def RunEnv.rand (v : RunEnv) (block purpose elem : Nat) : Nat := randWord v.seed.toNat v.step.toNat v.tag.toNat block purpose elem

/-- One chain operation that is no update (R133, R310): `q` its place from 0, (i, j) the element of the shape, (r, k) that of the output,
`b` the output block. -/
def State.chainOp (s : State) (v : RunEnv) (d : Dr) (b i j r k q : Nat) (x : W32) : W32 :=
  let w := wordAt d.ops q
  let a := opArg w
  let cst := fun n => wordAt d.consts n
  let vec := fun n => s.fieldWord v.core (d.vec a + 4 * n)
  match opCode w with
  | 0x01 => fadd x (cst a)
  | 0x02 => fmul x (cst a)
  | 0x03 => fmax x (cst a)
  | 0x04 => fmin x (cst a)
  | 0x05 => ffma x (cst a) (cst (a + 1))
  | 0x08 => fadd x (vec j)
  | 0x09 => fmul x (vec j)
  | 0x0A => fadd x (vec i)
  | 0x0B => fmul x (vec i)
  | 0x10 => fadd x (s.elem32 v.core (d.side a) v.gens r k)
  | 0x11 => fmul x (s.elem32 v.core (d.side a) v.gens r k)
  | 0x18 => fexp2 x
  | 0x19 => frecip x
  | 0x1A => frsqrt x
  | 0x1B => flog2 x
  | 0x1C => fmul x x
  | 0x20 => fmul x (frecip (fadd f32one (fexp2 (fmul x (cst a)))))
  | 0x28 => if v.rand b (q + 1) (r % 64 * 64 + k % 64) ≥ (cst a).toNat then fmul x (cst (a + 1)) else f32zero
  | 0x40 => fmul x (s.optParams v.core (d.vec a) v.step).f
  | _ => x

/-- An update operation (R310): the new weight and the new moments. -/
def optUpdate (adamw : Bool) (p : OptP) (g w0 m0 v0 : W32) : W32 × W32 × W32 :=
  let m1 := if adamw then ffma p.beta1 m0 (fmul p.omb1 g) else ffma p.beta1 m0 g
  let v1 := ffma p.beta2 v0 (fmul p.omb2 (fmul g g))
  let q := if adamw then fdiv (fmul m1 p.bc1) (fadd (fsqrt (fmul v1 p.bc2)) p.eps) else m1
  (ffma (fneg p.lr) (ffma p.wd w0 q) w0, m1, v1)

/-- The conversion of an FP32 value to a format code (R70 to R73, R78, R79): the stored code, for C11 and C12 the BF16 value, and whether it overflowed. -/
def convTo (fmt : Nat) (u : Option Nat) (sc : Int) (x : W32) : Nat × Bool :=
  let f := fmtOf fmt
  if fmt = 0 then (x.toNat, false)
  else if fmt = 3 || fmt = 4 then toFp8 f u sc x
  else ((match u with | none => rne f (f32 x) | some w => srnd f w (f32 x)), false)

/-- The value of a code as written, widened (R69, R141). -/
def codeVal (fmt : Nat) (sc : Int) (code : Nat) : W32 :=
  toF32 ((if fmt = 3 || fmt = 4 then vscale sc else id) (fdec (fmtOf fmt) code))

/-- An element a DRAIN writes: its code, its value as written, the codes of its moments, g and the update of R315, and whether it overflowed. -/
structure DrElem where
  code : Nat
  val  : W32
  m1   : Nat
  v1   : Nat
  g    : W32
  dw   : W32
  ovf  : Bool

/-- One element of a DRAIN (R135, R310): `t` its tile, (i, j) in the shape, (r, k) in the output. -/
def State.drElem (s : State) (v : RunEnv) (d : Dr) (sc : Int) (b t i j r k : Nat) : DrElem :=
  let x0 := s.tileElem d.basin v.core t (i % 64 * 64 + j % 64)
  let n := if d.opt then d.chain.length - 1 else d.chain.length
  let g := (List.range n).foldl (fun x q => s.chainOp v d b i j r k q x) x0
  let u := if d.sr then some (v.rand b 0 (r % 64 * 64 + k % 64)) else none
  if d.opt then
    let w0 := s.elem32 v.core d.out v.gens r k
    let p := s.optParams v.core (d.vec (opArg (wordAt d.ops n))) v.step
    let (x, m1, v1) := optUpdate d.adamw p g w0 (s.elem32 v.core d.side0 v.gens r k) (s.elem32 v.core d.side1 v.gens r k)
    let code := (convTo d.out.fmt u sc x).1
    ⟨code, codeVal d.out.fmt sc code, (convTo d.side0.fmt none 0 m1).1, (convTo d.side1.fmt none 0 v1).1, g,
     fsub (codeVal d.out.fmt sc code) w0, false⟩
  else
    let (code, o) := convTo d.out.fmt u sc g
    ⟨code, codeVal d.out.fmt sc code, 0, 0, g, 0, o⟩

/-- The masked bytes that store a code at element (i, j) of a block at `a` (R115). -/
def putCode (fmt a i j code : Nat) : List (Nat × Byte × Byte) :=
  let (b, sh) := elemPlace fmt a i j
  let n := (sh + elemBits fmt + 7) / 8
  ((leBytes n (code * 2 ^ sh)).zip (leBytes n ((2 ^ elemBits fmt - 1) * 2 ^ sh))).zipIdx.map fun x => (b + x.2, x.1.1, x.1.2)

/-- One bit of a bitmap as a masked byte (R140). -/
def putBit (base i : Nat) (v : Bool) : Nat × Byte × Byte :=
  (base + i / 8, if v then 0xFF#8 else 0, BitVec.ofNat 8 (2 ^ (i % 8)))

/-- Two effects, one after the other. -/
def Eff.join (a b : Eff) : Eff :=
  ⟨a.fault.or b.fault, a.tiles ++ b.tiles, a.freeTiles ++ b.freeTiles, a.reads ++ b.reads, a.writes ++ b.writes, a.field ++ b.field, a.holds ++ b.holds, a.scratch ++ b.scratch, a.hist ++ b.hist, a.stats ++ b.stats,
   (List.range 12).map fun i => satAdd (wordAt a.ctr i) (wordAt b.ctr i).toNat, a.keep ++ b.keep⟩

/-- Masked bytes written to device memory or to Field. -/
def Eff.put (e : Eff) (field : Bool) (bs : List (Nat × Byte × Byte)) : Eff :=
  if field then { e with field := e.field ++ bs } else { e with writes := e.writes ++ bs }

/-- A compressed block (R337 to R339, R362): the rows of BF16 values, each with its valid values; its bytes and its clamps. -/
def cmpBlock (c12 : Bool) (table : List Nat) (handle gen : Nat) (rows : List (List Nat)) : Bytes × Nat :=
  let w := if c12 then 12 else 11
  let coded := rows.map fun r => r.map fun v => cmpEncode c12 table v
  let clamps := (coded.map fun r => (r.filter fun x => x.2).length).sum
  let head := gen * 2 ^ 28 + handle * 2 ^ 20 + b2n c12 * 2 ^ 19 + clamps
  let row := fun i => ((coded.getD i []).zipIdx.map fun x => x.1.1 * 2 ^ (w * x.2)).sum
  (leBytes 64 head ++ (List.range 64).flatMap fun i => leBytes (8 * w) (row i), clamps)

/-- The sum of squares of the rows of a block (R141). -/
def blockNorm (rows : List (List W32)) : W32 :=
  rows.foldl (fun a r => fadd a (treeReduce fadd f32zero (r.map fun v => fmul v v))) f32zero

/-- The address of a lane of the statistics table (R326). -/
def State.laneAddr (s : State) (m slot c : Nat) : Nat := s.statBase m + 1024 * slot + 4 * c

/-- What a DRAIN does with the output block under tile (tr, tc) of the shape (R135, R138 to R141, R314, R362): its effect and its three contributions. -/
def State.drBlock (s : State) (m : Nat) (v : RunEnv) (d : Dr) (rank tr tc : Nat) : Eff × W32 × W32 × W32 :=
  let br := (d.row + rank * d.rStr + tr) % 2 ^ 26
  let bc := (d.col + rank * d.cStr + tc) % 2 ^ 26
  if ! d.out.inside br bc then (Eff.none, f32zero, f32zero, f32zero)
  else
    let b := br * d.out.stride + bc
    let t := d.base + tr * d.nt + tc
    let hold := if d.opt then s.hold d.basin v.core t else 0
    let keep := fun i => ! hold.testBit i
    let next := d.out.auxAddr (d.out.blocks + b)
    let sc := if d.out.fp8 then scaleOf ((s.locBytes v.core d.out.field next 1).getD 0 0) else 0
    let vr := d.out.validRows br
    let vc := d.out.validCols bc
    let rows := ((List.range vr).filter keep).map fun i => (i, (List.range vc).map fun j =>
      s.drElem v d sc b t (64 * tr + i) (64 * tc + j) (64 * br + i) (64 * bc + j))
    let all := rows.flatMap fun r => r.2
    let put := fun (fmt a : Nat) (f : DrElem → Nat) => rows.flatMap fun r => r.2.zipIdx.flatMap fun x => putCode fmt a r.1 x.2 (f x.1)
    let gen := match v.gens.find? fun g => g.1 = d.out.handle with | some g => g.2 | none => 0
    let (packed, clamps) := if d.out.cmp then
      cmpBlock (d.out.fmt = 6) (s.tableFor v.gens d.out.handle) d.out.handle gen (rows.map fun r => r.2.map fun e => e.code) else ([], 0)
    let ovf := all.any fun e => e.ovf
    let zero := vr = rows.length && all.all fun e => isZeroCode (fmtOf d.out.fmt) e.code
    let named := [0, 1].filter fun k => d.names k
    let reads := named.map d.side ++ (if d.opt then [d.out] else [])
    let fault := firstFault (reads.map (fun x => if d.opt then s.readFault m (if x.field then [] else x.fetchRunsIf keep br bc)
        else s.tensorFault m v.core x v.gens [(br, bc)]) ++
      [if d.out.fp8 && ! d.out.field then s.readFault m [(next, 1)] else none])
    let e : Eff := { Eff.none with
      fault := fault
      reads := (reads.flatMap fun x => if x.field then [] else if d.opt then x.fetchRunsIf keep br bc else x.readRuns [(br, bc)]) ++
        (if d.out.fp8 && ! d.out.field then [(next, 1)] else [])
      hist := if d.out.cmp && d.out.histEn then all.map fun x => (s.histBase m + 1024 * d.out.handle + 4 * (x.code / 128 % 256), 1) else []
      ctr := ctrWords [all.length, ceilDiv (elemBits d.out.fmt * all.length) 8, b2n (d.zmapEn && zero), b2n ovf,
        if d.sr && d.out.fmt ≠ 0 then all.length else 0, if d.out.cmp then all.length else 0, clamps, if d.opt then all.length else 0,
        vr - rows.length, (reads.map fun x => x.fetchBytesIf keep br bc).sum,
        4096 * (reads.filter fun x => x.cmp && x.inside br bc).length, 0] }
    let e := e.put d.out.field (if d.out.cmp then wholeBytes (d.out.blockAddr b) packed else put d.out.fmt (d.out.blockAddr b) (fun x => x.code))
    let e := if d.opt then e.put d.side0.field (put d.side0.fmt (d.side0.blockAddr (br * d.side0.stride + bc)) (fun x => x.m1)) else e
    let e := if d.adamw then e.put d.side1.field (put d.side1.fmt (d.side1.blockAddr (br * d.side1.stride + bc)) (fun x => x.v1)) else e
    let e := if d.out.fp8 then e.put d.out.field [(d.out.auxAddr b, scaleByte sc, 0xFF#8),
      (next, scaleByte (if ovf && sc < 63 then sc + 1 else sc), 0xFF#8), putBit (d.out.auxAddr (2 * d.out.blocks)) b ovf] else e
    let e := if d.zmapEn then e.put false [putBit d.zmap b zero] else e
    (e, blockNorm (rows.map fun r => r.2.map fun x => x.val), blockNorm (rows.map fun r => r.2.map fun x => x.g),
      blockNorm (rows.map fun r => r.2.map fun x => x.dw))

/-- What a DRAIN does in a core when it starts (R135, R141, R315). -/
def State.drStart (s : State) (m c r : Nat) (ws : Words) (gens : List (Nat × Nat)) : Eff :=
  let d := drOf ws
  let v := s.runEnv m c ws gens
  let bs := (List.range d.mt).flatMap fun tr => (List.range d.nt).map fun tc => s.drBlock m v d r tr tc
  let e := bs.foldl (fun e b => e.join b.1) Eff.none
  let sum := fun (f : Eff × W32 × W32 × W32 → W32) => bs.foldl (fun a b => fadd a (f b)) f32zero
  let lane := fun k => s.laneAddr m (d.slot + k) c
  { e with stats := if ! d.stat then [] else (lane 0, sum fun b => b.2.1) ::
      (if d.opt then [(lane 1, sum fun b => b.2.2.1), (lane 2, sum fun b => b.2.2.2)] else []) }

/-- What a DRAIN uses in a core (R94). -/
def drFoot (ws : Words) : Foot :=
  let d := drOf ws
  let f := Foot.none.tilesR d.basin d.base (d.mt * d.nt)
  let f := d.vecRanges.foldl (fun f r => f.read r.1 r.2) f
  let f := if d.names 0 then f.tensorR d.side0 else f
  let f := if d.names 1 then f.tensorR d.side1 else f
  let f := if d.opt then (f.tensorW d.side0).tensorW d.side1 else f
  f.tensorW d.out

/-- The PCC checks and issues a DRAIN (R135, R142). -/
def execDrain (p : Fin 16) (s : State) : Result := .next (s.reach p 0x02 fun s m ws => s.issueTile p (s.drSpec m ws))

end Sys2Proof.Machine
end

