-- ==== Sys2Proof/Machine/Backward.lean ====
section
/-! DEFINITION. WGRAD, TILE_LOAD, NORM_FWD, NORM_BWD and STAT_SUM (R295 to R307, R316 to R330). -/

namespace Sys2Proof.Machine

/-! ### Masks -/

/-- The masks of a WGRAD or TILE_LOAD (R297, R305), with the block origin of the core's tile. -/
structure Masks where
  rows   : Nat
  blocks : Nat
  stride : Nat
  br0    : Nat
  bc0    : Nat

/-- Whether row `i` of the shape is masked by the row mask, and whether tile (tr, tc) is by the block mask (R299); coordinates are u32. -/
def State.rowMasked (s : State) (k : Masks) (i : Nat) : Bool :=
  k.rows ≠ 0 && (s.byte (k.rows + (k.br0 * 64 + i) % 2 ^ 32 / 8)).getLsbD (i % 8)
def Masks.blockIndex (k : Masks) (tr tc : Nat) : Nat := (k.br0 + tr) % 2 ^ 26 * k.stride + (k.bc0 + tc) % 2 ^ 26
def State.blockMasked (s : State) (k : Masks) (tr tc : Nat) : Bool :=
  k.blocks ≠ 0 && (s.byte (k.blocks + k.blockIndex tr tc / 8)).getLsbD (k.blockIndex tr tc % 8)

/-- Whether element row `i` of the shape is masked in tile column `tc` (R299). -/
def State.masked (s : State) (k : Masks) (i tc : Nat) : Bool := s.rowMasked k i || s.blockMasked k (i / 64) tc

/-- The HOLD mask of a tile (R303), and whether every element of it is masked (R301). -/
def State.holdOf (s : State) (k : Masks) (tr tc : Nat) : Nat :=
  ((List.range 64).map fun i => b2n (s.masked k (64 * tr + i) tc) * 2 ^ i).sum
def State.allMasked (s : State) (k : Masks) (tr tc : Nat) : Bool := (List.range 64).all fun i => s.masked k (64 * tr + i) tc

/-- The reads of mask bytes for a shape (R302). -/
def Masks.runs (k : Masks) (mt nt : Nat) : List (Nat × Nat) :=
  (if k.rows = 0 then [] else (List.range mt).map fun tr => (k.rows + (k.br0 + tr) % 2 ^ 26 * 8, 8)) ++
  (if k.blocks = 0 then [] else (List.range mt).flatMap fun tr => (List.range nt).map fun tc => (k.blocks + k.blockIndex tr tc / 8, 1))

/-- R298: a block mask needs a stride of at least the block columns; without one the stride is zero. -/
def maskStrideBad (blocks stride cols : Nat) : Bool := if blocks = 0 then stride ≠ 0 else stride < cols

/-! ### WGRAD -/

/-- The masks of a WGRAD in the core of rank `r` (R297, R298). -/
def wgMasks (d : Mm) (r : Nat) (ws : Words) : Masks := ⟨dword ws 32, dword ws 34, (wordAt ws 36).toNat, d.i0 r, d.j0 r⟩

/-- The issue checks of a WGRAD (R142, R298). -/
def wgSpec (ws : Words) : TileSpec :=
  let d := mmOf ws
  { reserved := hdrReserved ws || anyBits ws [(4, 0xFFFCC0F0), (5, 0xFF000000), (13, 0xFFFF0000)] || anyWords ws 37 48 || d.a.reserved || d.b.reserved,
    invalid := fun r => hdrLen ws ≠ 3 || bits (wordAt ws 4) 9 8 ≠ 1 || d.spec ≠ 0 || d.badCommon r || d.zmap ≠ 0 ||
      maskStrideBad (dword ws 34) (wordAt ws 36).toNat (ceilDiv (opCols d.b d.tb) 64),
    trefs := [d.a, d.b], handles := [d.a, d.b], hist := false, mix := fmtMix d.a d.b, chain := false, fieldBad := fun _ => d.fieldBad, tiles := d.tiles }

/-- What a WGRAD does in a core (R299 to R303). -/
def State.wgStart (s : State) (m c r : Nat) (ws : Words) (gens : List (Nat × Nat)) : Eff :=
  let d := mmOf ws
  let k := wgMasks d r ws
  let pos := (List.range d.mt).flatMap fun tr => (List.range d.nt).map fun tc => (tr, tc)
  let on := pos.filter fun x => ! s.allMasked k x.1 x.2
  let rowsOn := (List.range d.mt).filter fun tr => on.any fun x => x.1 = tr
  let colsOn := (List.range d.nt).filter fun tc => on.any fun x => x.2 = tc
  let onOf := fun q => pos.filter fun x => ! s.allMasked (wgMasks d q ws) x.1 x.2
  let fs := d.fetches (rankCount ws) r (fun q => let o := onOf q; d.over d.mt fun _ tr => o.any fun x => x.1 = tr)
    fun q => let o := onOf q; d.over d.nt fun _ tc => o.any fun x => x.2 = tc
  let (fetched, saved, zf, ex) := fetchCounts fs r
  let start := fun (x : Nat × Nat) e => if d.clear then f32zero else s.tileElem d.dest c (d.base + x.1 * d.nt + x.2) e
  let tile := fun (x : Nat × Nat) => (List.range 4096).map fun e =>
    let i := x.1 * 64 + e / 64
    if s.masked k i x.2 then start x e else s.mmElem c d r gens (fun _ _ => false) (start x e) i (x.2 * 64 + e % 64)
  { Eff.none with
    fault := firstFault (s.readFault m (k.runs d.mt d.nt) :: fs.map fun f => s.tensorFault m c f.t gens f.own)
    reads := k.runs d.mt d.nt ++ fetchRunsOf fs r
    tiles := pos.map fun x => (d.dest, d.base + x.1 * d.nt + x.2, tile x)
    holds := if d.clear then pos.map fun x => (d.dest, d.base + x.1 * d.nt + x.2, s.holdOf k x.1 x.2) else []
    scratch := [stageRange d.a d.stageA d.slotA, stageRange d.b d.stageB d.slotB]
    ctr := ctrWords [fetched, saved, zf, ex, 0, 0, 0, 0, 0, 0, pos.length - on.length,
      (if d.a.field then 0 else d.steps * (d.mt - rowsOn.length)) + (if d.b.field then 0 else d.steps * (d.nt - colsOn.length))] }

/-- The PCC checks and issues a WGRAD (R297, R142). -/
def execWgrad (p : Fin 16) (s : State) : Result := .next (s.reach p 0x08 fun s _ ws => s.issueTile p (wgSpec ws))

/-! ### TILE_LOAD -/

/-- The fields of a TILE_LOAD (R305). -/
structure Tl where
  add    : Bool
  dest   : Bool
  shape  : Nat
  base   : Nat
  row    : Nat
  col    : Nat
  cStr   : Nat
  rStr   : Nat
  rowM   : Nat
  blkM   : Nat
  mStr   : Nat
  src    : Tref

def tlOf (ws : Words) : Tl :=
  let w4 := wordAt ws 4
  { add := bit w4 11, dest := bit w4 8, shape := bits w4 3 0, base := bits (wordAt ws 5) 23 16, row := (wordAt ws 6).toNat,
    col := (wordAt ws 7).toNat, cStr := bits (wordAt ws 8) 31 16, rStr := bits (wordAt ws 8) 15 0, rowM := dword ws 9, blkM := dword ws 11,
    mStr := (wordAt ws 13).toNat, src := trefAt ws 16 }

def Tl.mt (d : Tl) : Nat := ((shapeTiles d.shape).getD (1, 1)).1
def Tl.nt (d : Tl) : Nat := ((shapeTiles d.shape).getD (1, 1)).2

/-- The block origin in the core of rank `r` (R135, R307), in the modulo-2^32 arithmetic of its element coordinates. -/
def Tl.br0 (d : Tl) (r : Nat) : Nat := (d.row + r * d.rStr) % 2 ^ 26
def Tl.bc0 (d : Tl) (r : Nat) : Nat := (d.col + r * d.cStr) % 2 ^ 26
def Tl.masks (d : Tl) (r : Nat) : Masks := ⟨d.rowM, d.blkM, d.mStr, d.br0 r, d.bc0 r⟩

/-- The issue checks of a TILE_LOAD (R142, R306). -/
def tlSpec (ws : Words) : TileSpec :=
  let d := tlOf ws
  { reserved := hdrReserved ws || anyBits ws [(4, 0xFFFFF4F0), (5, 0xFF00FFFF)] || anyWords ws 14 16 || anyWords ws 24 32 || d.src.reserved,
    invalid := fun _ => hdrLen ws ≠ 2 || 2 ≤ bits (wordAt ws 4) 9 8 || (shapeTiles d.shape).isNone || d.src.auxBad ||
      (d.add && (d.rowM ≠ 0 || d.blkM ≠ 0)) || maskStrideBad d.blkM d.mStr d.src.blockCols,
    trefs := [d.src], handles := [d.src], hist := false, mix := false, chain := false, fieldBad := fun _ => d.src.pastField,
    tiles := [⟨d.dest, d.base, d.mt * d.nt, d.add, []⟩] }

/-- What a TILE_LOAD does in a core (R307). A block of which every element is masked is not fetched. -/
def State.tlStart (s : State) (m c r : Nat) (ws : Words) (gens : List (Nat × Nat)) : Eff :=
  let d := tlOf ws
  let k := d.masks r
  let pos := (List.range d.mt).flatMap fun tr => (List.range d.nt).map fun tc => (tr, tc)
  let blk := fun (x : Nat × Nat) => ((d.br0 r + x.1) % 2 ^ 26, (d.bc0 r + x.2) % 2 ^ 26)
  let bs := (pos.filter fun x => ! s.allMasked k x.1 x.2).map blk
  let pad := fun (x : Nat × Nat) (i j : Nat) => s.masked k (64 * x.1 + i) x.2 ||
    (blk x).1 * 64 + i ≥ d.src.rows || (blk x).2 * 64 + j ≥ d.src.cols
  let tile := fun (x : Nat × Nat) => (List.range 4096).map fun e =>
    let v := if pad x (e / 64) (e % 64) then f32zero else s.elem32 c d.src gens ((blk x).1 * 64 + e / 64) ((blk x).2 * 64 + e % 64)
    plusZero (if d.add then fadd (s.tileElem d.dest c (d.base + x.1 * d.nt + x.2) e) v else v)
  let fs : List Fetch := [⟨d.src, bs, false, []⟩]
  let (bytes, _, _, ex) := fetchCounts fs r
  let loaded := (pos.map fun x => ((List.range 64).map fun i => ((List.range 64).filter fun j => ! pad x i j).length).sum).sum
  { Eff.none with
    fault := firstFault [s.readFault m (k.runs d.mt d.nt), s.tensorFault m c d.src gens bs]
    reads := k.runs d.mt d.nt ++ fetchRunsOf fs r
    tiles := pos.map fun x => (d.dest, d.base + x.1 * d.nt + x.2, tile x)
    holds := if d.add then [] else pos.map fun x => (d.dest, d.base + x.1 * d.nt + x.2, s.holdOf k x.1 x.2)
    ctr := ctrWords [bytes, loaded, ex] }

/-- What a TILE_LOAD uses in a core (R94). -/
def tlFoot (ws : Words) : Foot :=
  let d := tlOf ws
  (Foot.none.tilesW d.dest d.base (d.mt * d.nt)).tensorR d.src

/-- The PCC checks and issues a TILE_LOAD (R307, R142). -/
def execTileLoad (p : Fin 16) (s : State) : Result := .next (s.reach p 0x09 fun s _ ws => s.issueTile p (tlSpec ws))

/-! ### NORM_FWD and NORM_BWD -/

/-- The fields of a norm command (R316). -/
structure Nm where
  bwd    : Bool
  kind   : Nat
  gainEn : Bool
  biasEn : Bool
  sr     : Bool
  src    : Bool
  resEn  : Bool
  gclear : Bool
  pgrad  : Bool
  acc    : Nat
  basin  : Nat
  c      : Nat
  row    : Nat
  eps    : W32
  gscale : W32
  stage  : Nat
  x      : Tref
  y      : Tref
  gain   : Tref
  bias   : Tref
  stats  : Tref
  res    : Tref

def nmOf (ws : Words) : Nm :=
  let w4 := wordAt ws 4
  { bwd := hdrType ws = 0x07, kind := bits w4 31 30, gainEn := bit w4 29, biasEn := bit w4 28, sr := bit w4 27, src := bit w4 26,
    resEn := bit w4 25, gclear := bit w4 24, pgrad := bit w4 23, acc := bits w4 15 8, basin := bits w4 7 0, c := bits (wordAt ws 5) 15 0,
    row := (wordAt ws 6).toNat, eps := wordAt ws 7, gscale := wordAt ws 8, stage := (wordAt ws 9).toNat, x := trefAt ws 16,
    y := trefAt ws 24, gain := trefAt ws 32, bias := trefAt ws 40, stats := trefAt ws 48, res := trefAt ws 56 }

/-- Whether the command reads each optional tensor (R316). -/
def Nm.usesBias (d : Nm) : Bool := if d.bwd then d.src else d.biasEn

/-- The tensors the command names (R316). -/
def Nm.used (d : Nm) : List Tref :=
  [d.x, d.y, d.stats] ++ (if d.gainEn then [d.gain] else []) ++ (if d.usesBias then [d.bias] else []) ++ (if d.bwd && d.resEn then [d.res] else [])

/-- Whether a tensor's shape differs from the one R316 states: γ and β have one row of H columns, STATS two columns and the rows of X, RES the
shape of X. The spec names no code for this (DESIGN CHOICE, log entry 14: CMD_INVALID). -/
def Nm.shapeBad (d : Nm) : Bool :=
  (d.gainEn && (d.gain.rows ≠ 1 || d.gain.cols ≠ d.x.cols)) || (! d.bwd && d.biasEn && (d.bias.rows ≠ 1 || d.bias.cols ≠ d.x.cols)) ||
  d.stats.cols ≠ 2 || d.stats.rows < d.x.rows || (d.bwd && d.resEn && (d.res.rows ≠ d.x.rows || d.res.cols ≠ d.x.cols))

/-- FORMAT_MIX of a norm command (R318). -/
def Nm.mixBad (d : Nm) : Bool :=
  let wide := fun t : Tref => t.fp8
  wide d.x || (d.bwd && d.src && wide d.bias) || (d.bwd && d.resEn && wide d.res) || d.y.fmt > 2 || (d.gainEn && d.gain.fmt > 1) ||
  (! d.bwd && d.biasEn && d.bias.fmt > 1) || d.stats.fmt ≠ 0

/-- The issue checks of a norm command (R142, R316 to R319, R702, R703): a field that R316 marks for NORM_BWD alone must be zero in NORM_FWD, and β as γ
is. -/
def nmSpec (ws : Words) : TileSpec :=
  let d := nmOf ws
  let nr := (maskPos (hdrMask ws)).length
  { reserved := hdrReserved ws || anyBits ws [(4, 0x007F0000), (5, 0xFFFF0000)] || anyWords ws 10 16 ||
      [d.x, d.y, d.gain, d.bias, d.stats, d.res].any fun t => t.reserved,
    invalid := fun _ => hdrLen ws ≠ 4 || d.kind = 3 || d.stage % 4096 ≠ 0 ||
      ! ((nr - 1) * 64 * d.c < d.x.cols && d.x.cols ≤ nr * 64 * d.c) ||
      (d.kind = 2 && (d.gainEn || d.biasEn || d.pgrad)) || (! d.bwd && (d.src || d.resEn || d.gclear || d.pgrad)) ||
      d.used.any (fun t => t.zero) || (! d.gainEn && ! d.gain.zero) || (! d.bwd && ! d.biasEn && ! d.bias.zero) ||
      (! d.bwd && (! d.res.zero || d.acc ≠ 0 || d.basin ≠ 0)) || (! (d.bwd && d.kind = 2) && d.gscale ≠ 0) ||
      d.shapeBad || d.used.any (fun t => t.auxBad),
    trefs := d.used, handles := d.used, hist := false, mix := d.mixBad, chain := false,
    fieldBad := fun _ => pastField d.stage (d.c * 32768) || d.used.any fun t => t.pastField,
    tiles := (if d.bwd && ! d.src then [⟨false, d.acc, d.c, true, List.range d.c⟩] else []) ++ (if d.pgrad then [⟨true, d.basin, d.c, ! d.gclear, []⟩] else []) }

/-- A quantity of a row combined over all its ranks (R64 to R66, R320). -/
def Nm.combine (d : Nm) (nr : Nat) (g : W32 → W32 → W32) (pad : W32) (f : Nat → W32) : W32 :=
  let part := fun r => segReduce g pad ((List.range d.c).map fun b => treeReduce g pad ((List.range 64).map fun j =>
    let col := (r * d.c + b) * 64 + j
    if col < d.x.cols then f col else pad))
  segReduce g pad ((List.range nr).map part)
def Nm.sumAll (d : Nm) (nr : Nat) (f : Nat → W32) : W32 := d.combine nr fadd f32zero f
def Nm.maxAll (d : Nm) (nr : Nat) (f : Nat → W32) : W32 := d.combine nr fmax f32ninf f

/-- A row of NORM_FWD (R321): its two statistics and its outputs before conversion, by column. -/
def Nm.fwdRow (d : Nm) (nr : Nat) (x gain bias : Nat → W32) : (W32 × W32) × (Nat → W32) :=
  let hf := toF32 (.fin false d.x.cols 0)
  if d.kind ≠ 2 then
    let mu := if d.kind = 1 then fdiv (d.sumAll nr x) hf else f32zero
    let dd := fun col => fsub (x col) mu
    let var := fdiv (d.sumAll nr fun col => fmul (dd col) (dd col)) hf
    let rstd := frsqrt (fadd var d.eps)
    ((mu, rstd), fun col =>
      let xh := fmul (dd col) rstd
      if d.gainEn then (if d.biasEn then ffma xh (gain col) (bias col) else fmul xh (gain col))
      else if d.biasEn then fadd xh (bias col) else xh)
  else
    let sc := fun col => fmul (x col) d.eps
    let mx := d.maxAll nr sc
    let l := if mx = f32ninf then f32ninf else fadd mx (flog2 (d.sumAll nr fun col => fexp2 (fsub (sc col) mx)))
    ((l, f32zero), fun col => if l = f32ninf then f32zero else fexp2 (fsub (sc col) l))

/-- A row of NORM_BWD (R322): dX before conversion, and what the row adds to dγ and dβ, by column. -/
def Nm.bwdRow (d : Nm) (nr : Nat) (x gain dy res : Nat → W32) (st0 st1 : W32) : (Nat → W32) × (Nat → W32) :=
  let hf := toF32 (.fin false d.x.cols 0)
  let add := fun col v => if d.resEn then fadd v (res col) else v
  if d.kind ≠ 2 then
    let xh := fun col => fmul (fsub (x col) st0) st1
    let g := fun col => if d.gainEn then fmul (dy col) (gain col) else dy col
    let c1 := fdiv (d.sumAll nr fun col => fmul (g col) (xh col)) hf
    let c0 := if d.kind = 1 then fdiv (d.sumAll nr g) hf else f32zero
    (fun col => add col (fmul st1 (fsub (fsub (g col) c0) (fmul (xh col) c1))), fun col => fmul (dy col) (xh col))
  else
    let pr := fun col => if st0 = f32ninf then f32zero else fexp2 (fsub (fmul (x col) d.eps) st0)
    let dl := d.sumAll nr fun col => fmul (pr col) (dy col)
    (fun col => add col (fmul (fmul (pr col) (fsub (dy col) dl)) d.gscale), fun _ => f32zero)

/-- The blocks a core of rank `r` reads of its tensors, and the tensors with them. -/
def Nm.reads (d : Nm) (r : Nat) : List (Tref × List (Nat × Nat)) :=
  let own := fun br => (List.range d.c).map fun k => (br, r * d.c + k)
  [(d.x, own d.row)] ++ (if d.gainEn then [(d.gain, own 0)] else []) ++
  (if d.usesBias then [(d.bias, own (if d.bwd then d.row else 0))] else []) ++
  (if d.bwd && d.resEn then [(d.res, own d.row)] else []) ++ (if d.bwd then [(d.stats, [(d.row, 0)])] else [])

/-- The real rows of the command. -/
def Nm.rows (d : Nm) : Nat := min 64 (d.x.rows - 64 * d.row)

/-- Why the reads of a core stop a norm command (R386, R350). -/
def State.nmFault (s : State) (m c r : Nat) (ws : Words) (gens : List (Nat × Nat)) : Option Nat :=
  firstFault (((nmOf ws).reads r).map fun x => s.tensorFault m c x.1 gens x.2)

/-- What the core of rank `r` of a norm command asks of device memory. -/
def Nm.runs (d : Nm) (r : Nat) : List (Nat × Nat) := (d.reads r).flatMap fun x => x.1.readRuns x.2

/-- What a norm command does in the core `c` of rank `r` of `nr` once the partials of the other ranks have arrived (R319 to R322); `core q` is the core
of rank `q`. -/
def State.nmFinish (s : State) (m c r nr : Nat) (core : Nat → Nat) (ws : Words) (gens : List (Nat × Nat)) : Eff :=
  let d := nmOf ws
  let v := s.runEnv m c ws gens
  let at_ := fun t i col => s.elem32 (core (col / 64 / d.c)) t gens i col
  let gain := at_ d.gain 0
  let cols := (List.range (64 * d.c)).filterMap fun k => let col := r * d.c * 64 + k; if col < d.x.cols then some col else none
  let row := fun i => 64 * d.row + i
  let dy := fun i col => if d.src then at_ d.bias (row i) col
    else s.tileElem false (core (col / 64 / d.c)) (d.acc + col / 64 % d.c) (i * 64 + col % 64)
  let st := fun i k => s.elem32 c d.stats gens (row i) k
  let fwd := (List.range d.rows).map fun i => d.fwdRow nr (at_ d.x (row i)) gain (at_ d.bias 0)
  let bwd := (List.range d.rows).map fun i => d.bwdRow nr (at_ d.x (row i)) gain (dy i) (at_ d.res (row i)) (st i 0) (st i 1)
  let out := fun i col => if d.bwd then (bwd.getD i (fun _ => 0, fun _ => 0)).1 col else (fwd.getD i ((0, 0), fun _ => 0)).2 col
  let put := fun i col =>
    let b := d.y.blockOf (row i) col
    let u := if d.sr then some (v.rand b 0 (i * 64 + col % 64)) else none
    if row i < d.y.rows && col < d.y.cols then
      putCode d.y.fmt (d.y.blockAddr b) i (col % 64) (convTo d.y.fmt u 0 (out i col)).1 else []
  let stat := fun i => (fwd.getD i ((0, 0), fun _ => 0)).1
  let putStat := fun i => let a := d.stats.blockAddr (d.stats.blockOf (row i) 0)
    putCode 0 a i 0 (stat i).1.toNat ++ putCode 0 a i 1 (stat i).2.toNat
  let grad := fun k e =>
    let col := (r * d.c + k) * 64 + e % 64
    let old := if d.gclear then f32zero else s.tileElem true c (d.basin + k) e
    if col ≥ d.x.cols || e ≥ 128 || (e ≥ 64 && ! d.biasEn) then old
    else (List.range d.rows).foldl (fun a i =>
      plusZero (fadd a (if e < 64 then (bwd.getD i (fun _ => 0, fun _ => 0)).2 col else dy i col))) old
  let reads := d.reads r
  let e : Eff := { Eff.none with
    tiles := if d.bwd && d.pgrad then (List.range d.c).map fun k => (true, d.basin + k, (List.range 4096).map (grad k)) else []
    holds := if d.bwd && d.pgrad && d.gclear then (List.range d.c).map fun k => (true, d.basin + k, 0) else []
    scratch := [(d.stage, d.c * 32768)]
    ctr := ctrWords [(reads.map fun x => (⟨x.1, x.2, false, []⟩ : Fetch).bytes).sum,
      (reads.map fun x => if x.1.cmp then 4096 * (x.2.filter fun b => x.1.inside b.1 b.2).length else 0).sum, d.rows] }
  let e := e.put d.y.field ((List.range d.rows).flatMap fun i => cols.flatMap fun col => put i col)
  if d.bwd || r ≠ 0 then e else e.put d.stats.field ((List.range d.rows).flatMap putStat)

/-- What a norm command uses in a core (R94). -/
def nmFoot (ws : Words) : Foot :=
  let d := nmOf ws
  let f := d.used.foldl (fun f t => f.tensorR t) Foot.none
  let f := (f.tensorW d.y).wrote d.stage (d.c * 32768)
  let f := if d.bwd then f else f.tensorW d.stats
  let f := if d.bwd && ! d.src then f.tilesR false d.acc d.c else f
  if d.pgrad then f.tilesW true d.basin d.c else f

/-- The PCC checks and issues a NORM_FWD (R321, R142). -/
def execNormFwd (p : Fin 16) (s : State) : Result := .next (s.reach p 0x06 fun s _ ws => s.issueTile p (nmSpec ws))

/-- The PCC checks and issues a NORM_BWD (R322, R142). -/
def execNormBwd (p : Fin 16) (s : State) : Result := .next (s.reach p 0x07 fun s _ ws => s.issueTile p (nmSpec ws))

/-! ### STAT_SUM -/

/-- The issue checks of a STAT_SUM (R142, R328, R702, R703). -/
def State.ssSpec (s : State) (m : Nat) (ws : Words) : TileSpec :=
  let w4 := wordAt ws 4
  let first := bits w4 15 0
  let count := bits (wordAt ws 5) 15 0
  let dest := (wordAt ws 6).toNat
  { reserved := hdrReserved ws || anyBits ws [(4, 0xFFFC0000), (5, 0xFFFF0000)] || anyWords ws 7 16,
    invalid := fun _ => hdrLen ws ≠ 1 || (maskPos (hdrMask ws)).length > 1 || count = 0 || first + count > s.statSlots m || dest % 4 ≠ 0 ||
      (! bit w4 17 && dest ≠ 0),
    trefs := [], handles := [], hist := false, mix := false, chain := false,
    fieldBad := fun _ => bit w4 17 && pastField dest (4 * count), tiles := [] }

/-- The 256 lanes of a slot (R326). -/
def State.lanes (s : State) (m slot : Nat) : Words := wordsOf 256 (s.read (s.laneAddr m slot 0) 1024)

/-- What a STAT_SUM does (R329). -/
def State.ssStart (s : State) (m : Nat) (ws : Words) : Eff :=
  let w4 := wordAt ws 4
  let first := bits w4 15 0
  let count := bits (wordAt ws 5) 15 0
  let dest := (wordAt ws 6).toNat
  let slots := (List.range count).map fun k => first + k
  let total := fun k => (s.lanes m k).foldl fadd f32zero
  let entry := fun k => s.statBase m + 1024 * s.statSlots m + 8 * k
  { Eff.none with
    fault := s.readFault m (slots.map fun k => (s.laneAddr m k 0, 1024))
    reads := slots.map fun k => (s.laneAddr m k 0, 1024)
    writes := slots.flatMap fun k => wholeBytes (entry k) (bytesOf [total k, (s.ctx m).step]) ++
      (if bit w4 16 then wholeBytes (s.laneAddr m k 0) (List.replicate 1024 0) else [])
    field := if bit w4 17 then slots.flatMap fun k => wholeBytes (dest + 4 * (k - first)) (leBytes 4 (total k).toNat) else []
    ctr := ctrWords [count] }

/-- What a STAT_SUM uses in its core (R94). -/
def ssFoot (ws : Words) : Foot :=
  if bit (wordAt ws 4) 17 then Foot.none.wrote (wordAt ws 6).toNat (4 * bits (wordAt ws 5) 15 0) else Foot.none

/-- The PCC checks and issues a STAT_SUM (R329, R142). -/
def execStatSum (p : Fin 16) (s : State) : Result := .next (s.reach p 0x0A fun s m ws => s.issueTile p (s.ssSpec m ws))

end Sys2Proof.Machine
end

