-- ==== Sys2Proof/Machine/Attn.lean ====
section
/-! DEFINITION. ATTN_FWD, ATTN_BWD and ATTN_MERGE (R242 to R277, R287 to R294, R363). -/

namespace Sys2Proof.Machine

/-- The fields of an ATTN_FWD or ATTN_BWD (R253, R268). In ATTN_BWD, `o` is TREF_DO, `v` is TREF_V or in PREP the output O, and `part_` is TREF_DELTA. -/
structure At where
  bwd     : Bool
  mode    : Nat
  out     : Nat
  clear   : Bool
  ltEn    : Bool
  kvSrc   : Nat
  rot     : Nat
  rotQ    : Bool
  rotK    : Bool
  mask    : Nat
  dHead   : Nat
  heads   : Nat
  group   : Nat
  cand    : Nat
  sr      : Bool
  acc     : Nat
  kvStr   : Nat
  qStr    : Nat
  part    : Nat
  state   : Nat
  scale   : W32
  window  : Nat
  qRow    : Nat
  head0   : Nat
  kvFirst : Nat
  kvCount : Nat
  qPos    : Nat
  kPos    : Nat
  stage   : Nat
  slotsKV : Nat
  slotsQ  : Nat
  lt      : Nat
  ltCount : Nat
  ltIndex : Nat
  pages   : Nat
  pageFmt : Nat
  pageSh  : Nat
  gscale  : W32
  q       : Tref
  k       : Tref
  v       : Tref
  o       : Tref
  lse     : Tref
  rotT    : Tref
  part_   : Tref

def atOf (ws : Words) : At :=
  let w := wordAt ws 4
  { bwd := hdrType ws = 0x04, mode := bits w 31 30, out := bits w 29 28, clear := bit w 27, ltEn := bit w 26, kvSrc := bits w 25 24,
    rot := bits w 23 22, rotQ := bit w 21, rotK := bit w 20, mask := bits w 19 18, dHead := bits w 17 16, heads := bits w 15 14 + 1,
    group := bits w 13 8 + 1, cand := bits w 7 5 + 1, sr := bit w 4, acc := bits (wordAt ws 5) 23 16, kvStr := bits (wordAt ws 5) 15 0,
    qStr := bits (wordAt ws 6) 31 16, part := bits (wordAt ws 6) 15 0, state := (wordAt ws 7).toNat, scale := wordAt ws 8,
    window := (wordAt ws 9).toNat, qRow := (wordAt ws 10).toNat, head0 := bits (wordAt ws 11) 15 0, kvFirst := (wordAt ws 12).toNat,
    kvCount := (wordAt ws 13).toNat, qPos := (wordAt ws 14).toNat, kPos := (wordAt ws 15).toNat, stage := (wordAt ws 16).toNat,
    slotsKV := bits (wordAt ws 17) 15 8, slotsQ := bits (wordAt ws 17) 7 0, lt := dword ws 18, ltCount := bits (wordAt ws 20) 31 16,
    ltIndex := bits (wordAt ws 20) 15 0, pages := (wordAt ws 21).toNat, pageFmt := bits (wordAt ws 22) 7 4, pageSh := bits (wordAt ws 22) 1 0,
    gscale := wordAt ws 23, q := trefAt ws 24, k := trefAt ws 32, v := trefAt ws 40, o := trefAt ws 48, lse := trefAt ws 56,
    rotT := trefAt ws 64, part_ := trefAt ws 72 }

/-- D ÷ 64 and D (R253). -/
def At.nb (d : At) : Nat := 2 ^ d.dHead
def At.dim (d : At) : Nat := 64 * d.nb

/-- DECODE of ATTN_FWD; page mode. -/
def At.decode (d : At) : Bool := ! d.bwd && d.mode = 1
def At.paged (d : At) : Bool := ! d.bwd && d.kvSrc = 1

/-! ### Issue checks -/

/-- The tensors that MODE, OUT, KV_SRC and ROT make the command use (R253, R268, R703). PREP reads no K and no LSE (DEDUCED, log entry 15); DKV and DQ
need LSE whatever OUT is, since R272 reads it (DEDUCED, log entry 141). -/
def At.uses (d : At) : List (Tref × Bool) :=
  if d.bwd then
    [(d.q, true), (d.k, d.mode ≠ 0), (d.v, true), (d.o, true), (d.lse, d.mode ≠ 0), (d.rotT, d.rot ≠ 0), (d.part_, true)]
  else
    [(d.q, true), (d.k, ! d.paged), (d.v, ! d.paged), (d.o, d.out = 1), (d.lse, d.out = 1), (d.rotT, d.rot ≠ 0), (d.part_, d.out = 2)]

def At.used (d : At) : List Tref := (d.uses.filter fun x => x.2).map fun x => x.1

/-- A format of Q, K, V, dO and of O (R244). -/
def qkvFmt (t : Tref) : Bool := t.fmt = 1 || t.fmt = 2 || t.fmt = 5 || t.fmt = 6
def outFmt (t : Tref) : Bool := t.fmt = 0 || t.fmt = 1 || t.fmt = 2

/-- FORMAT_MIX of the attention commands (R244). -/
def At.mixBad (d : At) : Bool :=
  let f32Bad := (d.rot ≠ 0 && d.rotT.fmt ≠ 0)
  if d.bwd then
    ! qkvFmt d.q || ! qkvFmt d.o || ! (if d.mode = 0 then outFmt d.v else qkvFmt d.v) || d.part_.fmt ≠ 0 || f32Bad ||
    (d.mode ≠ 0 && (! qkvFmt d.k || d.lse.fmt ≠ 0))
  else
    ! qkvFmt d.q || (! d.paged && (! qkvFmt d.k || ! qkvFmt d.v)) || (d.out = 1 && (! outFmt d.o || d.lse.fmt ≠ 0)) || f32Bad ||
    (d.out = 2 && d.part_.fmt ≠ 0)

/-- The invalid fields that ATTN_FWD and ATTN_BWD share (R256, R268, R702, R703). -/
def At.badCommon (d : At) : Bool :=
  d.rot = 3 || d.mask = 3 || d.dHead = 3 || (d.rot ≠ 0 && ! d.rotQ && ! d.rotK) || (d.rot = 0 && (d.rotQ || d.rotK)) ||
  (d.mask = 2 && d.window = 0) || d.kvCount = 0 || d.slotsQ < d.heads * d.nb || (if d.paged then d.slotsKV ≠ 0 else d.slotsKV < 4 * d.nb) ||
  d.stage % 4096 ≠ 0 || d.pages % 4096 ≠ 0 || (d.ltEn && d.lt % 16 ≠ 0) || (! d.ltEn && d.lt ≠ 0) ||
  d.uses.any fun x => if x.2 then x.1.zero || x.1.auxBad else ! x.1.zero

/-- The invalid fields of an ATTN_FWD in the core of rank `r` (R256, R288); in page mode a PAGE_FMT that R253 does not list is one of them (DESIGN
CHOICE, log entry 140). -/
def At.fwdBad (d : At) (r : Nat) : Bool :=
  2 ≤ d.mode || d.out = 3 || 2 ≤ d.kvSrc || d.badCommon || d.state % 512 ≠ 0 || (d.mode = 0 && d.cand ≠ 1) ||
  (d.mode = 1 && (! d.ltEn || d.heads ≠ 1 || d.head0 % d.group ≠ 0 || d.group * d.cand > 64 || d.qStr ≠ 0 || d.qRow ≠ 0)) ||
  (d.out = 2 && (d.part_.rows < 64 * (d.part + d.heads * (r + 1)) || d.part_.cols ≠ d.dim + 1)) ||
  (d.paged && ! (d.pageFmt = 1 || d.pageFmt = 2 || d.pageFmt = 5 || d.pageFmt = 6))

/-- The invalid fields of an ATTN_BWD (R268, R269). -/
def At.bwdBad (d : At) : Bool :=
  d.mode = 3 || 2 ≤ d.out || d.kvSrc ≠ 0 || d.cand ≠ 1 || d.sr || d.badCommon ||
  (d.mode = 0 && (d.clear || d.out ≠ 0 || d.acc ≠ 0 || d.kvCount ≠ 1)) ||
  (d.mode = 1 && (d.heads ≠ 1 || d.head0 % d.group ≠ 0 || d.qStr ≠ 0))

/-- The accumulator tiles of a command from ACC_BASE on, and the offsets it frees at issue (R257, R258, R269, R270). -/
def At.count (d : At) : Nat :=
  if ! d.bwd then d.heads * (d.nb + 1)
  else if d.mode = 0 then 0
  else if d.mode = 1 then 2 * d.nb + 2
  else d.heads * (d.nb + 2)
def At.freed (d : At) : List Nat :=
  if ! d.bwd then (if d.out = 0 then [] else List.range d.count)
  else if d.out = 0 then []
  else if d.mode = 1 then [2 * d.nb, 2 * d.nb + 1]
  else (List.range d.heads).flatMap fun k => [k * (d.nb + 2) + d.nb, k * (d.nb + 2) + d.nb + 1]

/-- The Field regions an attention command names (R256). -/
def At.ranges (d : At) : List (Nat × Nat) :=
  [(d.stage, 8192 * (d.slotsQ + d.slotsKV))] ++ (if d.bwd then [] else [(d.state, 512 * d.heads)])

/-- The bytes of a page (R278). -/
def pageBytes (fmt shift nb : Nat) : Nat := 2 * 2 ^ shift * nb * blockBytes fmt

/-- The page slots a core reads, as a range of Field (R255). -/
def At.pageRange (d : At) : Nat × Nat :=
  if ! d.paged then (0, 0)
  else
    let b := pageBytes d.pageFmt d.pageSh d.nb
    let first := d.kvFirst / 2 ^ d.pageSh
    (d.pages + first * b, ((d.kvFirst + d.kvCount - 1) / 2 ^ d.pageSh - first + 1) * b)

/-- The issue checks of an ATTN_FWD or ATTN_BWD (R142, R256, R269). -/
def atSpec (ws : Words) : TileSpec :=
  let d := atOf ws
  let pg := d.pageRange
  { reserved := hdrReserved ws || anyBits ws [(4, 0xF), (5, 0xFF000000), (11, 0xFFFF0000), (17, 0xFFFF0000), (22, 0xFFFFFF0C)] ||
      (if d.bwd then anyBits ws [(6, 0xFFFF)] || wordAt ws 7 ≠ 0 else wordAt ws 23 ≠ 0) ||
      [d.q, d.k, d.v, d.o, d.lse, d.rotT, d.part_].any fun t => t.reserved,
    invalid := fun r => hdrLen ws ≠ 5 || (if d.bwd then d.bwdBad else d.fwdBad r),
    trefs := d.used, handles := d.used, hist := false, mix := d.mixBad, chain := false,
    fieldBad := fun _ => (d.ranges.any fun r => pastField r.1 r.2) || (d.paged && pastField pg.1 pg.2) || d.used.any fun t => t.pastField,
    tiles := if d.count = 0 then [] else [⟨false, d.acc, d.count, ! d.clear, d.freed⟩] }

/-- The references an ATTN_FWD in page mode with compressed pages takes: every handle of the context that has a table (R363). -/
def State.pageRefs (s : State) (m : Nat) (d : At) : List (Nat × Nat) :=
  if d.paged && (d.pageFmt = 5 || d.pageFmt = 6) then
    ((List.range 256).filter fun h => s.ownsHandle m h && (s.currentSlot h).isSome).map fun h => (h, s.handleGen h)
  else []

/-- The PCC checks and issues an ATTN_FWD (R256, R363). -/
def execAttnFwd (p : Fin 16) (s : State) : Result :=
  .next (s.reach p 0x03 fun s m ws => s.issueTile p (atSpec ws) (s.pageRefs m (atOf ws)))

/-- The PCC checks and issues an ATTN_BWD (R269). -/
def execAttnBwd (p : Fin 16) (s : State) : Result := .next (s.reach p 0x04 fun s _ ws => s.issueTile p (atSpec ws))

/-! ### Positions and masks -/

/-- An entry of the length table (R245): START, LEN, POS0. -/
structure LtEntry where
  start : Nat
  len   : Nat
  pos0  : Nat

/-- The `n` entries of a length table from entry `first` on. -/
def State.ltEntries (s : State) (lt first n : Nat) : List LtEntry :=
  (List.range n).map fun k =>
    let w := wordsOf 4 (s.read (lt + 16 * (first + k)) 16)
    ⟨(wordAt w 0).toNat, (wordAt w 1).toNat, (wordAt w 2).toNat⟩

/-- Whether non-empty entries break R247. -/
def ltBad : List LtEntry → Bool
  | [] => false
  | a :: r => a.start + a.len > 2 ^ 32 || a.pos0 + a.len > 2 ^ 32 ||
    (match r with | b :: _ => b.start < a.start + a.len | [] => false) || ltBad r

/-- The place of a row in the table (R246): its position and its entry. -/
def ltCover (l : List LtEntry) (t : Nat) : Option (Nat × Nat) :=
  ((l.zipIdx).find? fun e => e.1.start ≤ t && t < e.1.start + e.1.len).map fun e => (e.1.pos0 + (t - e.1.start), e.2)

/-- A query row of a tile: position, sequence, token row, and the head in DECODE relative to HEAD0. -/
structure AtRow where
  pos : Nat
  seq : Nat
  tok : Nat
  g   : Nat

/-- Query row `i` of the tile at query block row `qb`; none for a padding row (R246, R254, R261, R287). With LT_EN = 0 the sum Q_POS_BASE + t, and
that of a key with K_POS_BASE, does not wrap at 2^32 (DESIGN CHOICE, log entry 142). -/
def At.row (d : At) (l : List LtEntry) (qb i : Nat) : Option AtRow :=
  if d.decode then
    match l with
    | e :: _ =>
      let g := i / d.cand
      let t := i % d.cand
      if g < d.group && t < e.len && e.start + t < d.q.rows then some ⟨e.pos0 + t, 0, e.start + t, g⟩ else none
    | [] => none
  else
    let t := 64 * qb + i
    if t ≥ d.q.rows then none
    else if d.ltEn then (ltCover (l.filter fun e => e.len ≠ 0) t).map fun x => ⟨x.1, x.2, t, 0⟩
    else some ⟨d.qPos + t, 0, t, 0⟩

/-- Key row `j` of key block `kb`: position and sequence; none where no real key lies (R246, R255, R261, R290). -/
def At.key (d : At) (l : List LtEntry) (kb j : Nat) : Option (Nat × Nat) :=
  let t := 64 * kb + j
  if ! d.paged && t ≥ d.k.rows then none
  else if d.decode then
    let pos := d.kPos + t
    match l with
    | e :: _ => if pos < e.pos0 + e.len then some (pos, 0) else none
    | [] => none
  else if d.ltEn then ltCover (l.filter fun e => e.len ≠ 0) t
  else some (d.kPos + t, 0)

/-- Whether a pair is masked (R261). -/
def At.masked (d : At) (q : Option AtRow) (k : Option (Nat × Nat)) : Bool :=
  match q, k with
  | some q, some k => q.seq ≠ k.2 || (d.mask ≠ 0 && k.1 > q.pos) || (d.mask = 2 && q.pos - k.1 ≥ d.window)
  | _, _ => true

/-- Whether some pair of a query tile and a key block is not masked (R264). -/
def At.meets (d : At) (l : List LtEntry) (qb kb : Nat) : Bool :=
  (List.range 64).any fun i => let r := d.row l qb i; r.isSome && (List.range 64).any fun j => ! d.masked r (d.key l kb j)

/-- The part of the length table a command reads (R246, R248, R287). -/
def At.ltRun (d : At) : Nat × Nat := if d.decode then (d.ltIndex, 1) else (0, d.ltCount)
def State.atTable (s : State) (d : At) : List LtEntry := if d.ltEn then s.ltEntries d.lt d.ltRun.1 d.ltRun.2 else []

/-! ### Values -/

/-- The BF16 value of rne_bf16. -/
def toBf16 (x : W32) : FVal := fdec .bf16 (rne .bf16 (f32 x))

/-- The pair of element `i` of a head, whether it is the pair's first, and the pair's frequency (R250). -/
def At.pair (d : At) (i : Nat) : Nat × Nat × Bool × Nat :=
  if d.rot = 1 then (i / 2 * 2, i / 2 * 2 + 1, i % 2 = 0, i / 2)
  else let h := d.dim / 2; (i % h, i % h + h, i < h, i % h)

/-- Element `i` of a row after rotation at position `pos` (R251). -/
def State.rotated (s : State) (c : Nat) (d : At) (gens : List (Nat × Nat)) (pos : Nat) (x : Nat → W32) (i : Nat) : FVal :=
  let (a, b, first, f) := d.pair i
  let cs := s.elem32 c d.rotT gens pos (2 * f)
  let sn := s.elem32 c d.rotT gens pos (2 * f + 1)
  toBf16 (if first then ffma (x a) cs (fneg (fmul (x b) sn)) else ffma (x a) sn (fmul (x b) cs))

/-- Element `i` of a row of a token tensor in the columns of head `h`, rotated if `on` (R242, R251). -/
def State.staged (s : State) (c : Nat) (d : At) (gens : List (Nat × Nat)) (t : Tref) (tok h pos : Nat) (on : Bool) (i : Nat) : FVal :=
  if on then s.rotated c d gens pos (fun k => s.elem32 c t gens tok (h * d.dim + k)) i
  else s.elem c t gens tok (h * d.dim + i)

/-- Field offset of block (row `br`, column `x`) of K or of V in a page slot (R255, R278); `b` is the key block of the command. -/
def At.pageBlock (d : At) (val : Bool) (b x : Nat) : Nat :=
  let n := d.kvFirst + b
  d.pages + n / 2 ^ d.pageSh * pageBytes d.pageFmt d.pageSh d.nb +
    ((if val then 2 ^ d.pageSh else 0) + n % 2 ^ d.pageSh) * d.nb * blockBytes d.pageFmt + x * blockBytes d.pageFmt

/-- Whether a block of a page slot fails its check (R363). A block of zeros, as a null page leaves it, is computed as zeros and makes none (R285,
DEDUCED, log entry 139). -/
def State.pageStale (s : State) (c : Nat) (d : At) (gens : List (Nat × Nat)) (a : Nat) : Bool :=
  (d.pageFmt = 5 || d.pageFmt = 6) && (s.fieldRead c a (blockBytes d.pageFmt)).any (fun b => b ≠ 0) &&
  (let h := s.cmpHeader c true a
   ! (bit h 19 = (d.pageFmt = 6 : Bool) && gens.contains (bits h 27 20, bits h 31 28)))

/-- Element (j, i) of the K or V block row in a page slot (R255, R363). -/
def State.pageElem (s : State) (c : Nat) (d : At) (gens : List (Nat × Nat)) (val : Bool) (b j i : Nat) : FVal :=
  let a := d.pageBlock val b (i / 64)
  let code := s.elemCode c true d.pageFmt a j (i % 64)
  if d.pageFmt = 5 || d.pageFmt = 6 then
    fdec .bf16 (cmpDecode (d.pageFmt = 6) (s.tableFor gens (bits (s.cmpHeader c true a) 27 20)) code)
  else fdec (fmtOf d.pageFmt) code

/-- Element `i` of key row `j` of key block `kb` (the `b`-th of the command) as staged; zero where no real key lies (R246, R251). -/
def State.keyElem (s : State) (c : Nat) (d : At) (gens : List (Nat × Nat)) (l : List LtEntry) (kvh kb b j i : Nat) : FVal :=
  match d.key l kb j with
  | none => vzero
  | some k =>
    if d.paged then
      (if d.rotK then s.rotated c d gens k.1 (fun x => toF32 (s.pageElem c d gens false b j x)) i else s.pageElem c d gens false b j i)
    else s.staged c d gens d.k (64 * kb + j) kvh k.1 d.rotK i

/-- Element `i` of value row `j`. -/
def State.valElem (s : State) (c : Nat) (d : At) (gens : List (Nat × Nat)) (kvh kb b j i : Nat) : FVal :=
  if d.paged then s.pageElem c d gens true b j i else s.elem c d.v gens (64 * kb + j) (kvh * d.dim + i)

/-- Element `i` of a query row for head `h`; padding rows are zero. -/
def State.queryElem (s : State) (c : Nat) (d : At) (gens : List (Nat × Nat)) (h : Nat) (r : Option AtRow) (i : Nat) : FVal :=
  match r with
  | none => vzero
  | some q => s.staged c d gens d.q q.tok h q.pos d.rotQ i

/-- A dot product of two staged rows over D in ascending order (R49, R50). -/
def dot (n : Nat) (x y : Nat → FVal) : W32 := accChain f32zero ((List.range n).map fun i => (x i, y i))

/-! ### ATTN_FWD -/

/-- The running state of a query row (R259). -/
structure Soft where
  m : W32
  l : W32
  o : Words

/-- One key block for one query row (R263). -/
def softStep (c : W32) (dim : Nat) (masked : Nat → Bool) (score : Nat → W32) (v : Nat → Nat → FVal) (t : Soft) : Soft :=
  if (List.range 64).all masked then t
  else
    let s2 := (List.range 64).map fun j => if masked j then f32ninf else fmul (score j) c
    let mn := fmax t.m (treeReduce fmax f32ninf s2)
    let dead : Bool := mn = f32ninf
    let alpha := if dead then f32one else fexp2 (fsub t.m mn)
    let p := s2.zipIdx.map fun x => if dead || masked x.2 then vzero else toBf16 (fexp2 (fsub x.1 mn))
    let l := ffma alpha t.l (treeReduce fadd f32zero (p.map toF32))
    let terms := fun col => ((List.range 64).filter fun j => ! masked j).map fun j => (p.getD j vzero, v j col)
    ⟨mn, l, (List.range dim).map fun col => accChain (plusZero (fmul alpha (wordAt t.o col))) (terms col)⟩

/-- The head a query row of head index `k` of the command belongs to (R257, R287). -/
def At.headOf (d : At) (k : Nat) (r : Option AtRow) : Nat :=
  if d.decode then d.head0 + (match r with | some q => q.g | none => 0) else d.head0 + k

/-- The value head of head index `k` (R243). -/
def At.kvHead (d : At) (k : Nat) : Nat := (d.head0 + (if d.decode then 0 else k)) / d.group

/-- The key blocks a core computes (R264), by their place `b` in the command; `kb` its key block row. -/
def At.kb (d : At) (r b : Nat) : Nat := d.kvFirst + r * d.kvStr + b
def At.on (d : At) (l : List LtEntry) (r : Nat) : List Nat :=
  (List.range d.kvCount).filter fun b => d.meets l (d.qRow + r * d.qStr) (d.kb r b)

/-- The state of a query row of head index `k` before the command, and after it. -/
def State.softInit (s : State) (c : Nat) (d : At) (k i : Nat) : Soft :=
  if d.clear then ⟨f32ninf, f32zero, List.replicate d.dim f32zero⟩
  else ⟨s.fieldWord c (d.state + 512 * k + 4 * i), s.fieldWord c (d.state + 512 * k + 256 + 4 * i),
    (List.range d.dim).map fun x => s.tileElem false c (d.acc + k * (d.nb + 1) + x / 64) (i * 64 + x % 64)⟩
def State.softRow (s : State) (c : Nat) (d : At) (gens : List (Nat × Nat)) (l : List LtEntry) (r k i : Nat) : Soft :=
  let q := d.row l (d.qRow + r * d.qStr) i
  (d.on l r).foldl (fun t b =>
    let kb := d.kb r b
    softStep d.scale d.dim (fun j => d.masked q (d.key l kb j))
      (fun j => dot d.dim (s.queryElem c d gens (d.headOf k q) q) (s.keyElem c d gens l (d.kvHead k) kb b j))
      (s.valElem c d gens (d.kvHead k) kb b) t) (s.softInit c d k i)

/-- The normalised row and its log-sum-exp (R265, R291). -/
def Soft.outs (t : Soft) : Words × W32 :=
  if isZeroCode .fp32 t.l.toNat then (t.o.map fun _ => f32zero, f32ninf) else (t.o.map fun x => fdiv x t.l, fadd t.m (flog2 t.l))

/-- A valid element of a tensor written (R115). -/
def Tref.putElem (t : Tref) (v : RunEnv) (sr : Bool) (r k : Nat) (x : W32) : List (Nat × Byte × Byte) :=
  if r < t.rows && k < t.cols then
    let b := t.blockOf r k
    let u := if sr then some (v.rand b 0 (r % 64 * 64 + k % 64)) else none
    putCode t.fmt (t.blockAddr b) (r % 64) (k % 64) (convTo t.fmt u 0 x).1
  else []

/-- The blocks of a token tensor in the columns of head `h` for a list of token rows. -/
def At.headBlocks (d : At) (rows : List Nat) (h : Nat) : List (Nat × Nat) :=
  ((rows.map fun t => t / 64).eraseDups).flatMap fun br => (List.range d.nb).map fun x => (br, h * d.nb + x)

/-- Positions at or beyond ROT's rows (R252). -/
def At.rotBad (d : At) (qs : List AtRow) (ks : List (Nat × Nat)) : Bool :=
  (d.rotQ && qs.any fun q => q.pos ≥ d.rotT.rows) || (d.rotK && ks.any fun k => k.1 ≥ d.rotT.rows)

/-- The codes of R294. -/
def rotRange : Nat := 0x080A
def lenTable : Nat := 0x080B

/-- Why the length table of a command stops it (R247, R386). -/
def State.ltFault (s : State) (m : Nat) (d : At) : Option Nat :=
  if ! d.ltEn || d.ltRun.2 = 0 then none
  else match s.readFault m [(d.lt + 16 * d.ltRun.1, 16 * d.ltRun.2)] with
    | some f => some f
    | none => if ltBad ((s.atTable d).filter fun e => e.len ≠ 0) then some lenTable else none

/-- The reads of ROT for a list of positions: whole block rows of the table. -/
def At.rotReads (d : At) (ps : List Nat) : List (Nat × Nat) :=
  ((ps.map fun p => p / 64).eraseDups).flatMap fun br => (List.range d.nb).map fun x => (br, x)

/-- The query blocks and the key blocks of device memory that the core of rank `r` of a PREFILL, DECODE or DQ reads (R254, R264). -/
def At.qBlocks (d : At) (l : List LtEntry) (r : Nat) : List (Nat × Nat) :=
  let toks := ((List.range 64).filterMap fun i => d.row l (d.qRow + r * d.qStr) i).map fun q => q.tok
  (if d.decode then (List.range d.group).map fun g => d.head0 + g else (List.range d.heads).map fun k => d.head0 + k).flatMap (d.headBlocks toks)
def At.kBlocks (d : At) (l : List LtEntry) (r : Nat) : List (Nat × Nat) :=
  if d.paged then []
  else (d.on l r).flatMap fun b => (((List.range d.heads).map d.kvHead).eraseDups).flatMap fun h => (List.range d.nb).map fun x => (d.kb r b, h * d.nb + x)

/-- The query block rows of a DKV that its core of rank `r` computes, and its real query rows in them (R264, R272). -/
def At.dkvOn (d : At) (l : List LtEntry) (r : Nat) : List Nat :=
  ((List.range d.kvCount).map fun b => d.qRow + b).filter fun qb => d.meets l qb (d.kvFirst + r * d.kvStr)
def At.dkvRows (d : At) (l : List LtEntry) (r : Nat) : List AtRow :=
  (d.dkvOn l r).flatMap fun qb => (List.range 64).filterMap fun i => d.row l qb i

/-- The query blocks and the key blocks that the core of rank `r` of a DKV reads. -/
def At.dkvQBlocks (d : At) (l : List LtEntry) (r : Nat) : List (Nat × Nat) :=
  ((List.range d.group).map fun g => d.head0 + g).flatMap (d.headBlocks ((d.dkvRows l r).map fun q => q.tok))
def At.dkvKBlocks (d : At) (l : List LtEntry) (r : Nat) : List (Nat × Nat) :=
  if d.dkvOn l r = [] then [] else (List.range d.nb).map fun x => (d.kvFirst + r * d.kvStr, d.head0 / d.group * d.nb + x)

/-- The key rows that a command rotates in the core of rank `r` (R252, R273). -/
def At.rotKeys (d : At) (l : List LtEntry) (r : Nat) : List (Nat × Nat) :=
  if d.bwd && d.mode = 1 then
    (if d.dkvOn l r = [] && d.out ≠ 1 then [] else (List.range 64).filterMap fun j => d.key l (d.kvFirst + r * d.kvStr) j)
  else (d.on l r).flatMap fun b => (List.range 64).filterMap fun j => d.key l (d.kb r b) j

/-- Whether the core of rank `r` would rotate a row at or beyond ROT's rows (R252). -/
def At.rotFails (d : At) (l : List LtEntry) (r : Nat) : Bool :=
  d.rot ≠ 0 && ! (d.bwd && d.mode = 0) &&
  d.rotBad (if d.bwd && d.mode = 1 then d.dkvRows l r else (List.range 64).filterMap fun i => d.row l (d.qRow + r * d.qStr) i) (d.rotKeys l r)

/-- What stops an ATTN_FWD or ATTN_BWD of `n` cores before any of them does anything: its length table, or a position of any of them (R247, R252). -/
def State.atFault (s : State) (m : Nat) (d : At) (n : Nat) : Option Nat :=
  firstFault [s.ltFault m d, if (List.range n).any fun k => d.rotFails (s.atTable d) k then some rotRange else none]

/-- The run of the length table a command reads. -/
def At.ltReads (d : At) : List (Nat × Nat) := if d.ltEn then [(d.lt + 16 * d.ltRun.1, 16 * d.ltRun.2)] else []

/-- What an ATTN_FWD does in a core (R263 to R266, R289, R291). BYTES_FETCHED counts the blocks of Q, K, V, dO and O, and not those of ROT, LSE and DELTA
(DESIGN CHOICE, log entry 143). -/
def State.fwdStart (s : State) (m c r : Nat) (ws : Words) (gens : List (Nat × Nat)) : Eff :=
  let d := atOf ws
  let v := s.runEnv m c ws gens
  let l := s.atTable d
  let qb := d.qRow + r * d.qStr
  let rows := (List.range 64).map fun i => d.row l qb i
  let real := rows.filterMap id
  let on := d.on l r
  let keys := on.flatMap fun b => (List.range 64).filterMap fun j => d.key l (d.kb r b) j
  let ks := List.range d.heads
  let kvH := (ks.map d.kvHead).eraseDups
  let n := rankCount ws
  let kB := d.kBlocks l r
  let fs : List Fetch := [⟨d.q, d.qBlocks l r, d.qStr = 0, unionOf n (d.qBlocks l)⟩, ⟨d.k, kB, d.kvStr = 0, unionOf n (d.kBlocks l)⟩,
    ⟨d.v, kB, d.kvStr = 0, unionOf n (d.kBlocks l)⟩]
  let fs := if d.paged then fs.take 1 else fs
  let pB := if d.paged then on.flatMap fun b => (List.range d.nb).flatMap fun x => [d.pageBlock false b x, d.pageBlock true b x] else []
  let rot := d.rotReads ((if d.rotQ then real.map fun q => q.pos else []) ++ if d.rotK then keys.map fun k => k.1 else [])
  let fault := firstFault ([s.atFault m d n] ++ fs.map (fun f => s.tensorFault m c f.t gens f.own) ++
    [if d.rot = 0 then none else s.tensorFault m c d.rotT gens rot, if pB.any fun a => s.pageStale c d gens a then some 0x0D02 else none])
  let soft := ks.map fun k => (List.range 64).map fun i => s.softRow c d gens l r k i
  let at_ := fun k i => (soft.getD k []).getD i ⟨0, 0, []⟩
  let (bf, bs, _, be) := fetchCounts fs r
  let wrote := fun i => match rows.getD i none with | some q => [q] | none => []
  let e : Eff := { Eff.none with
    fault := fault
    reads := d.ltReads ++ fetchRunsOf fs r ++ (if d.rot = 0 then [] else d.rotT.readRuns rot)
    tiles := ks.flatMap fun k => (List.range d.nb).map fun x =>
      (false, d.acc + k * (d.nb + 1) + x, (List.range 4096).map fun e => wordAt (at_ k (e / 64)).o (64 * x + e % 64))
    freeTiles := ks.map fun k => d.acc + k * (d.nb + 1) + d.nb
    field := ks.flatMap fun k => wholeBytes (d.state + 512 * k)
      (bytesOf (((List.range 64).map fun i => (at_ k i).m) ++ (List.range 64).map fun i => (at_ k i).l))
    holds := if d.clear then (List.range d.count).map fun k => (false, d.acc + k, 0) else []
    scratch := [(d.stage, 8192 * (d.slotsQ + d.slotsKV))]
    ctr := ctrWords [bf, bs, be + (if d.pageFmt = 5 || d.pageFmt = 6 then 4096 * pB.length else 0), d.heads * on.length,
      d.heads * (d.kvCount - on.length), (if d.rotQ then d.heads * d.dim * real.length else 0) + (if d.rotK then kvH.length * d.dim * keys.length else 0),
      if d.out = 0 then 0 else d.heads * real.length, 0] }
  if d.out = 1 then
    let outs := ks.flatMap fun k => (List.range 64).flatMap fun i => (wrote i).flatMap fun q =>
      (at_ k i).outs.1.zipIdx.flatMap fun x => d.o.putElem v d.sr q.tok (d.headOf k (some q) * d.dim + x.2) x.1
    let lses := ks.flatMap fun k => (List.range 64).flatMap fun i => (wrote i).flatMap fun q =>
      d.lse.putElem v false q.tok (d.headOf k (some q)) (at_ k i).outs.2
    (e.put d.o.field outs).put d.lse.field lses
  else if d.out = 2 then
    e.put d.part_.field (ks.flatMap fun k => (List.range 64).flatMap fun i =>
      let row := 64 * (d.part + r * d.heads + k) + i
      let x := if (rows.getD i none).isSome then (at_ k i).outs else (List.replicate d.dim f32zero, f32ninf)
      (x.1 ++ [x.2]).zipIdx.flatMap fun y => d.part_.putElem v false row y.2 y.1)
  else e

/-! ### ATTN_BWD -/

/-- A gradient term list over 64 rows or columns, masked pairs left out (R262, R272). -/
def gradTerms (masked : Nat → Bool) (a b : Nat → FVal) : List (FVal × FVal) :=
  ((List.range 64).filter fun x => ! masked x).map fun x => (a x, b x)

/-- The probability and the score gradient of a pair (R272) for query row `q` of head `h` and key row `j`. -/
def State.probGrad (s : State) (c : Nat) (d : At) (gens : List (Nat × Nat)) (l : List LtEntry) (h kvh kb j : Nat) (q : AtRow) : W32 × W32 :=
  let sc := dot d.dim (s.queryElem c d gens h (some q)) (s.keyElem c d gens l kvh kb 0 j)
  let dp := dot d.dim (fun i => s.elem c d.o gens q.tok (h * d.dim + i)) (s.valElem c d gens kvh kb 0 j)
  let p := fexp2 (fsub (fmul sc d.scale) (s.elem32 c d.lse gens q.tok h))
  (p, fmul (fmul p (fsub dp (s.elem32 c d.part_ gens q.tok h))) d.gscale)

/-- The probability and the score gradient of a pair; +0 of a masked one (R272). -/
def State.pairGrad (s : State) (c : Nat) (d : At) (gens : List (Nat × Nat)) (l : List LtEntry) (h kvh kb j : Nat) (q : Option AtRow)
    (k : Option (Nat × Nat)) : W32 × W32 :=
  if d.masked q k then (f32zero, f32zero)
  else match q with
  | some q => s.probGrad c d gens l h kvh kb j q
  | none => (f32zero, f32zero)

/-- A rotated gradient row turned back (R273). -/
def State.unrotated (s : State) (c : Nat) (d : At) (gens : List (Nat × Nat)) (pos : Nat) (g : Nat → W32) (i : Nat) : W32 :=
  let (a, b, first, f) := d.pair i
  let cs := s.elem32 c d.rotT gens pos (2 * f)
  let sn := s.elem32 c d.rotT gens pos (2 * f + 1)
  plusZero (if first then ffma (g a) cs (fmul (g b) sn) else ffma (g b) cs (fneg (fmul (g a) sn)))

/-- An element of a gradient tile before the command: +0 with CLEAR, else what the tile holds. -/
def State.gradInit (s : State) (c : Nat) (d : At) (tile i x : Nat) : W32 :=
  if d.clear then f32zero else s.tileElem false c (tile + x / 64) (i * 64 + x % 64)

/-- The tiles of a gradient of 64 rows from its elements. -/
def gradTiles (base nb : Nat) (g : Nat → Nat → W32) : List (Bool × Nat × Words) :=
  (List.range nb).map fun x => (false, base + x, (List.range 4096).map fun e => g (e / 64) (64 * x + e % 64))

/-- What PREP does in a core (R271). -/
def State.prepStart (s : State) (m c r n : Nat) (d : At) (v : RunEnv) : Eff :=
  let l := s.atTable d
  let real := (List.range 64).filterMap fun i => d.row l (d.qRow + r * d.qStr) i
  let hs := (List.range d.heads).map fun k => d.head0 + k
  let bl := d.qBlocks l r
  let fs : List Fetch := [⟨d.o, bl, d.qStr = 0, unionOf n (d.qBlocks l)⟩, ⟨d.v, bl, d.qStr = 0, unionOf n (d.qBlocks l)⟩]
  let delta := fun (q : AtRow) h => rowSum ((List.range d.dim).map fun i =>
    fmul (s.elem32 c d.o v.gens q.tok (h * d.dim + i)) (s.elem32 c d.v v.gens q.tok (h * d.dim + i)))
  let (bf, bs, _, be) := fetchCounts fs r
  let e : Eff := { Eff.none with
    fault := firstFault (s.atFault m d n :: fs.map fun f => s.tensorFault m c f.t v.gens f.own)
    reads := d.ltReads ++ fetchRunsOf fs r
    scratch := [(d.stage, 8192 * (d.slotsQ + d.slotsKV))]
    ctr := ctrWords [bf, bs, be, 0, 0, 0, d.heads * real.length, 0] }
  e.put d.part_.field (real.flatMap fun q => hs.flatMap fun h => d.part_.putElem v false q.tok h (delta q h))

/-- What DKV does in a core (R272, R273). -/
def State.dkvStart (s : State) (m c r n : Nat) (d : At) (v : RunEnv) : Eff :=
  let l := s.atTable d
  let kb := d.kvFirst + r * d.kvStr
  let hs := (List.range d.group).map fun g => d.head0 + g
  let kvh := d.head0 / d.group
  let on := d.dkvOn l r
  let keys := (List.range 64).map fun j => d.key l kb j
  let realK := keys.filterMap id
  let rows := fun qb => (List.range 64).map fun i => d.row l qb i
  let realQ := d.dkvRows l r
  let kB := d.dkvKBlocks l r
  let fs : List Fetch := [⟨d.q, d.dkvQBlocks l r, true, unionOf n (d.dkvQBlocks l)⟩, ⟨d.o, d.dkvQBlocks l r, true, unionOf n (d.dkvQBlocks l)⟩,
    ⟨d.k, kB, d.kvStr = 0, unionOf n (d.dkvKBlocks l)⟩, ⟨d.v, kB, d.kvStr = 0, unionOf n (d.dkvKBlocks l)⟩]
  let rot := d.rotReads ((if d.rotQ then realQ.map fun q => q.pos else []) ++ if d.rotK then (d.rotKeys l r).map fun k => k.1 else [])
  let st := realQ.flatMap fun q => ((hs.map fun h => h / 64).eraseDups).map fun x => (q.tok / 64, x)
  let fault := firstFault ([s.atFault m d n] ++ fs.map (fun f => s.tensorFault m c f.t v.gens f.own) ++
    [if d.rot = 0 then none else s.tensorFault m c d.rotT v.gens rot, s.tensorFault m c d.lse v.gens st, s.tensorFault m c d.part_ v.gens st])
  let steps := on.flatMap fun qb => hs.map fun h => (qb, h)
  let pgs := steps.map fun y => keys.zipIdx.map fun k => (rows y.1).map fun q => s.pairGrad c d v.gens l y.2 kvh kb k.2 q k.1
  let grad := fun (isK : Bool) j x =>
    (steps.zip pgs).foldl (fun acc y =>
      let row := fun i => d.row l y.1.1 i
      let msk := fun i => d.masked (row i) (keys.getD j none)
      let pg := fun i => (((y.2.getD j []).getD i (f32zero, f32zero)) : W32 × W32)
      accChain acc (gradTerms msk (fun i => toBf16 (if isK then (pg i).2 else (pg i).1)) (fun i =>
        if isK then s.queryElem c d v.gens y.1.2 (row i) x
        else match row i with | some q => s.elem c d.o v.gens q.tok (y.1.2 * d.dim + x) | none => vzero)))
      (s.gradInit c d (d.acc + (if isK then 0 else d.nb)) j x)
  let dk := fun j x => match keys.getD j none with
    | some k => if d.out = 1 && d.rotK then s.unrotated c d v.gens k.1 (grad true j) x else grad true j x
    | none => grad true j x
  let (bf, bs, _, be) := fetchCounts fs r
  { Eff.none with
    fault := fault
    reads := d.ltReads ++ fetchRunsOf fs r ++ (if d.rot = 0 then [] else d.rotT.readRuns rot) ++ d.lse.readRuns st ++ d.part_.readRuns st
    tiles := gradTiles d.acc d.nb dk ++ gradTiles (d.acc + d.nb) d.nb (grad false)
    freeTiles := [d.acc + 2 * d.nb, d.acc + 2 * d.nb + 1]
    holds := if d.clear then (List.range d.count).map fun k => (false, d.acc + k, 0) else []
    scratch := [(d.stage, 8192 * (d.slotsQ + d.slotsKV))]
    ctr := ctrWords [bf, bs, be, d.group * on.length, d.group * (d.kvCount - on.length),
      (if d.rotQ then d.group * d.dim * realQ.length else 0) + (if d.rotK && ! kB.isEmpty then d.dim * realK.length else 0) +
      (if d.out = 1 && d.rotK then d.dim * realK.length else 0), 0, 0] }

/-- What DQ does in a core (R272, R273). -/
def State.dqStart (s : State) (m c r n : Nat) (d : At) (v : RunEnv) : Eff :=
  let l := s.atTable d
  let qb := d.qRow + r * d.qStr
  let rows := (List.range 64).map fun i => d.row l qb i
  let real := rows.filterMap id
  let on := d.on l r
  let keys := on.flatMap fun b => (List.range 64).filterMap fun j => d.key l (d.kb r b) j
  let ks := List.range d.heads
  let kvH := (ks.map d.kvHead).eraseDups
  let fs : List Fetch := [⟨d.q, d.qBlocks l r, d.qStr = 0, unionOf n (d.qBlocks l)⟩, ⟨d.o, d.qBlocks l r, d.qStr = 0, unionOf n (d.qBlocks l)⟩,
    ⟨d.k, d.kBlocks l r, d.kvStr = 0, unionOf n (d.kBlocks l)⟩, ⟨d.v, d.kBlocks l r, d.kvStr = 0, unionOf n (d.kBlocks l)⟩]
  let rot := d.rotReads ((if d.rotQ then real.map fun q => q.pos else []) ++ if d.rotK then keys.map fun k => k.1 else [])
  let st := (ks.map fun k => (qb, (d.head0 + k) / 64)).eraseDups
  let fault := firstFault ([s.atFault m d n] ++ fs.map (fun f => s.tensorFault m c f.t v.gens f.own) ++
    [if d.rot = 0 then none else s.tensorFault m c d.rotT v.gens rot, s.tensorFault m c d.lse v.gens st, s.tensorFault m c d.part_ v.gens st])
  let pgs := ks.map fun k => on.map fun b => rows.map fun q => (List.range 64).map fun j =>
    s.pairGrad c d v.gens l (d.head0 + k) (d.kvHead k) (d.kb r b) j q (d.key l (d.kb r b) j)
  let grad := fun k i x => (on.zip (pgs.getD k [])).foldl (fun acc y =>
    let kb := d.kb r y.1
    let msk := fun j => d.masked (rows.getD i none) (d.key l kb j)
    accChain acc (gradTerms msk (fun j => toBf16 (((y.2.getD i []).getD j (f32zero, f32zero)) : W32 × W32).2)
      (fun j => s.keyElem c d v.gens l (d.kvHead k) kb y.1 j x)))
    (s.gradInit c d (d.acc + k * (d.nb + 2)) i x)
  let dq := fun k i x => match rows.getD i none with
    | some q => if d.out = 1 && d.rotQ then s.unrotated c d v.gens q.pos (grad k i) x else grad k i x
    | none => grad k i x
  let (bf, bs, _, be) := fetchCounts fs r
  { Eff.none with
    fault := fault
    reads := d.ltReads ++ fetchRunsOf fs r ++ (if d.rot = 0 then [] else d.rotT.readRuns rot) ++ d.lse.readRuns st ++ d.part_.readRuns st
    tiles := ks.flatMap fun k => gradTiles (d.acc + k * (d.nb + 2)) d.nb (dq k)
    freeTiles := ks.flatMap fun k => [d.acc + k * (d.nb + 2) + d.nb, d.acc + k * (d.nb + 2) + d.nb + 1]
    holds := if d.clear then (List.range d.count).map fun k => (false, d.acc + k, 0) else []
    scratch := [(d.stage, 8192 * (d.slotsQ + d.slotsKV))]
    ctr := ctrWords [bf, bs, be, d.heads * on.length, d.heads * (d.kvCount - on.length),
      (if d.rotQ then d.heads * d.dim * real.length else 0) + (if d.rotK then kvH.length * d.dim * keys.length else 0) +
      (if d.out = 1 && d.rotQ then d.heads * d.dim * real.length else 0), 0, 0] }

/-- What an ATTN_BWD does in a core (R268 to R273). -/
def State.bwdStart (s : State) (m c r : Nat) (ws : Words) (gens : List (Nat × Nat)) : Eff :=
  let d := atOf ws
  let v := s.runEnv m c ws gens
  match d.mode with
  | 0 => s.prepStart m c r (rankCount ws) d v
  | 1 => s.dkvStart m c r (rankCount ws) d v
  | _ => s.dqStart m c r (rankCount ws) d v

/-- What an ATTN_FWD or ATTN_BWD uses in a core (R94, R284). -/
def atFoot (ws : Words) : Foot :=
  let d := atOf ws
  let f := (Foot.none.tilesW false d.acc d.count).wrote d.stage (8192 * (d.slotsQ + d.slotsKV))
  let f := if d.bwd then f else f.wrote d.state (512 * d.heads)
  let f := f.read d.pageRange.1 d.pageRange.2
  let f := [d.q, d.k, d.v, d.rotT].foldl (fun f t => f.tensorR t) f
  if d.bwd then ((f.tensorR d.o).tensorR d.lse).tensorW d.part_
  else ((f.tensorW d.o).tensorW d.lse).tensorW d.part_

/-! ### ATTN_MERGE -/

/-- The fields of an ATTN_MERGE (R292). -/
structure Mg where
  dHead   : Nat
  group   : Nat
  cand    : Nat
  sr      : Bool
  npart   : Nat
  part    : Nat
  head0   : Nat
  lt      : Nat
  ltIndex : Nat
  p       : Tref
  o       : Tref
  lse     : Tref

def mgOf (ws : Words) : Mg :=
  let w := wordAt ws 4
  { dHead := bits w 17 16, group := bits w 13 8 + 1, cand := bits w 7 5 + 1, sr := bit w 4, npart := bits (wordAt ws 5) 7 0,
    part := bits (wordAt ws 6) 15 0, head0 := bits (wordAt ws 7) 15 0, lt := dword ws 8, ltIndex := bits (wordAt ws 10) 15 0,
    p := trefAt ws 16, o := trefAt ws 24, lse := trefAt ws 32 }

def Mg.dim (d : Mg) : Nat := 64 * 2 ^ d.dHead

/-- The issue checks of an ATTN_MERGE (R142, R292). -/
def mgSpec (ws : Words) : TileSpec :=
  let d := mgOf ws
  let ts := [d.p, d.o, d.lse]
  { reserved := hdrReserved ws || anyBits ws [(4, 0xFFFCC00F), (5, 0xFFFFFF00), (6, 0xFFFF0000), (7, 0xFFFF0000), (10, 0xFFFF0000)] ||
      anyWords ws 11 16 || anyWords ws 40 48 || ts.any fun t => t.reserved,
    invalid := fun _ => hdrLen ws ≠ 3 || (maskPos (hdrMask ws)).length > 1 || d.dHead = 3 || d.npart = 0 || d.group * d.cand > 64 ||
      d.head0 % d.group ≠ 0 || d.lt = 0 || d.lt % 16 ≠ 0 || d.p.cols ≠ d.dim + 1 || d.p.rows < 64 * (d.part + d.npart) || d.o.zero || d.lse.zero ||
      ts.any fun t => t.auxBad,
    trefs := ts, handles := ts, hist := false, mix := d.p.fmt ≠ 0 || ! outFmt d.o || d.lse.fmt ≠ 0, chain := false,
    fieldBad := fun _ => ts.any fun t => t.pastField, tiles := [] }

/-- The merged row (R293): its output before conversion and its log-sum-exp, from the partials' L and O. -/
def mergeRow (npart dim : Nat) (l : Nat → W32) (o : Nat → Nat → W32) : Words × W32 :=
  let mx := (List.range npart).foldl (fun a x => fmax a (l x)) f32ninf
  if mx = f32ninf then (List.replicate dim f32zero, f32ninf)
  else
    let w := fun x => fexp2 (fsub (l x) mx)
    let sum := (List.range npart).foldl (fun a x => fadd a (w x)) f32zero
    let acc := fun col => (List.range npart).foldl (fun a x => ffma (w x) (o x col) a) f32zero
    ((List.range dim).map fun col => fdiv (acc col) sum, fadd mx (flog2 sum))

/-- What an ATTN_MERGE does (R289, R293). -/
def State.mgStart (s : State) (m c : Nat) (ws : Words) (gens : List (Nat × Nat)) : Eff :=
  let d := mgOf ws
  let v := s.runEnv m c ws gens
  let es := s.ltEntries d.lt d.ltIndex 1
  let e0 := es.headD ⟨0, 0, 0⟩
  let rows := (List.range (d.group * d.cand)).filter fun i => i % d.cand < e0.len
  let xs := (List.range d.npart).map fun x => d.part + x
  let bl := xs.flatMap fun x => (List.range (2 ^ d.dHead + 1)).map fun k => (x, k)
  let fault := match s.readFault m [(d.lt + 16 * d.ltIndex, 16)] with
    | some f => some f
    | none => if ltBad (es.filter fun e => e.len ≠ 0) then some lenTable else s.tensorFault m c d.p gens bl
  let at_ := fun x i col => s.elem32 c d.p gens (64 * (d.part + x) + i) col
  let out := fun i => mergeRow d.npart d.dim (fun x => at_ x i d.dim) (fun x col => at_ x i col)
  let tok := fun i => e0.start + i % d.cand
  let head := fun i => d.head0 + i / d.cand
  let b := (⟨d.p, bl, false, []⟩ : Fetch).bytes
  let e : Eff := { Eff.none with fault := fault, reads := (d.lt + 16 * d.ltIndex, 16) :: d.p.readRuns bl, ctr := ctrWords [b, 0, 0, 0, 0, 0, rows.length, 0] }
  let e := e.put d.o.field (rows.flatMap fun i => (out i).1.zipIdx.flatMap fun x => d.o.putElem v d.sr (tok i) (head i * d.dim + x.2) x.1)
  e.put d.lse.field (rows.flatMap fun i => d.lse.putElem v false (tok i) (head i) (out i).2)

/-- What an ATTN_MERGE uses in its core (R94). -/
def mgFoot (ws : Words) : Foot :=
  let d := mgOf ws
  ((Foot.none.tensorR d.p).tensorW d.o).tensorW d.lse

/-- The PCC checks and issues an ATTN_MERGE (R292). -/
def execAttnMerge (p : Fin 16) (s : State) : Result := .next (s.reach p 0x05 fun s _ ws => s.issueTile p (mgSpec ws))

end Sys2Proof.Machine
end

