-- ==== Sys2Proof/Machine/Dma.lean ====
section
/-! DEFINITION. DMA (R412 to R420) and PAGE_WALK (R278 to R286). -/

namespace Sys2Proof.Machine

/-- A DMA descriptor read (R412). -/
structure Dm where
  mode   : Nat
  prio   : Nat
  vc     : Nat
  remote : Bool
  sig    : Bool
  core   : Nat
  obj    : Nat
  dev    : Nat
  mask   : Nat
  rows   : Nat
  cols   : Nat
  sRow   : Nat
  sCol   : Nat
  dRow   : Nat
  dCol   : Nat
  bytes  : Nat
  src    : Tref
  dst    : Tref

/-- The fields of a DMA (R412). -/
def dmOf (ws : Words) : Dm :=
  let w4 := wordAt ws 4
  let w5 := wordAt ws 5
  let w6 := wordAt ws 6
  { mode := bits w4 31 30, prio := bits w4 29 28, vc := bits w4 27 26, remote := bit w4 25, sig := bit w4 24, core := bits w4 17 14,
    obj := bits w4 13 0, dev := bits w5 27 16, mask := bits w5 15 0, rows := bits w6 31 16, cols := bits w6 15 0,
    sRow := (wordAt ws 7).toNat, sCol := (wordAt ws 8).toNat, dRow := (wordAt ws 9).toNat, dCol := (wordAt ws 10).toNat,
    bytes := (wordAt ws 11).toNat, src := trefAt ws 16, dst := trefAt ws 24 }

/-- The BLOCK modes, and the modes that copy. -/
def Dm.block (d : Dm) : Bool := d.mode % 2 = 0
def Dm.copy (d : Dm) : Bool := d.mode < 2

/-- A header that breaks R179. -/
def pccHdrBad (ws : Words) (len : Nat) : Bool := hdrLen ws ≠ len || hdrMask ws ≠ 0 || hdrDoneEn ws

/-- A block range outside a tensor's blocks (R420). -/
def Tref.outside (t : Tref) (row col rows cols : Nat) : Bool := row + rows > t.blockRows || col + cols > t.stride

/-- The words of a reference that the LINEAR modes leave unused (R412), with BASE_HI of one in Field (R107, R703). -/
def Tref.linearBad (t : Tref) : Bool := (t.field && 2 ^ 32 ≤ t.base) || t.rows ≠ 0 || t.cols ≠ 0 || t.fmt ≠ 0 || t.stride ≠ 0 || t.aux ≠ 0

/-- Reserved fields of a DMA (R412, R9). -/
def Dm.reserved (d : Dm) (ws : Words) : Bool :=
  hdrReserved ws || anyBits ws [(4, 0x7C0000), (5, 0xF0000000)] || anyWords ws 12 16 || d.src.resv || d.dst.resv ||
  (d.block && (d.src.reserved || d.dst.reserved))

/-- PCC_CMD_INVALID of a DMA (R420, R703). -/
def Dm.invalid (d : Dm) (ws : Words) : Bool :=
  pccHdrBad ws 2 || d.prio = 3 || (if d.remote then d.vc = 0 || d.dst.field else d.vc ≠ 0 || d.dev ≠ 0) ||
  (if d.dst.field then d.mask = 0 else d.mask ≠ 0) || (! d.src.field && d.core ≠ 0) || (! d.copy && ! trefZero ws 16) ||
  (if d.block then
    d.rows = 0 || d.cols = 0 || d.bytes ≠ 0 || d.dst.outside d.dRow d.dCol d.rows d.cols || d.dst.auxBad ||
    (if d.copy then d.src.outside d.sRow d.sCol d.rows d.cols || d.src.auxBad else d.sRow ≠ 0 || d.sCol ≠ 0)
  else
    anyWords ws 6 11 || d.bytes = 0 || d.bytes % 64 ≠ 0 || d.src.base % 64 ≠ 0 || d.dst.base % 64 ≠ 0 || d.src.linearBad || d.dst.linearBad)

/-- Source address, destination address and bytes of each piece (R413). -/
def Dm.chunks (d : Dm) : List (Nat × Nat × Nat) :=
  if d.block then (List.range d.rows).flatMap fun a => (List.range d.cols).map fun c =>
    (d.src.blockAddr ((d.sRow + a) * d.src.stride + d.sCol + c), d.dst.blockAddr ((d.dRow + a) * d.dst.stride + d.dCol + c),
      blockBytes d.dst.fmt)
  else [(d.src.base, d.dst.base, d.bytes)]

/-- A piece reaches past the end of Field. -/
def Dm.fieldBad (d : Dm) : Bool :=
  d.chunks.any fun x => (d.dst.field && pastField x.2.1 x.2.2) || (d.copy && d.src.field && pastField x.1 x.2.2)

/-- The first failing check of a DMA (R420). -/
def State.dmaCheck (s : State) (m : Nat) (ws : Words) : Option Nat :=
  let d := dmOf ws
  if d.reserved ws then some 0x0B01
  else if d.invalid ws then some 0x0901
  else if d.block && (! d.dst.valid || (d.copy && ! d.src.valid)) then some 0x0807
  else if d.block && (if d.copy then d.src.fmt ≠ d.dst.fmt else d.dst.cmp) then some 0x0803
  else if d.fieldBad then some 0x0804
  else if d.sig && ! s.ownsObj m d.obj then some 0x0A02
  else if d.remote && ! (s.devValid && s.reachable d.dev) then some 0x0E02
  else none

/-- Whether a job waits in the queue of its engine (R417). -/
def Job.waits (j : Job) : Bool := if j.coll then j.phase = .queued else ! j.moved

/-- The free entries of a plain's queue of 16 (R417). -/
def State.jobRoom (s : State) (p : Nat) : Bool := ((s.plain p).jobs.filter fun j => j.waits).length < 16

/-- A DMA or COLL placed in its engine's queue, or held while that is full (R417). -/
def State.placeJob (s : State) (p m : Nat) (coll : Bool) : State :=
  let x := s.plain p
  let ws := x.fetched.getD []
  if s.jobRoom p then
    let j : Job := ⟨x.next, ws, (s.ctx m).step, x.pos + descBytes (wordAt ws 0), x.prologue, coll, false, .queued, [], [], false⟩
    (s.setPlain p { x with jobs := x.jobs ++ [j] }).advance p
  else s.setPlain p { x with hold := .issueFull }

/-- The PCC checks a DMA and places it (R417, R420). -/
def execDma (p : Fin 16) (s : State) : Result :=
  .next (s.reach p 0x25 fun s m ws =>
    match s.dmaCheck m ws with
    | some code => s.issueFault p code (if code = 0x0A02 then (dmOf ws).obj else 0)
    | none => s.placeJob p m false)

/-- What a DMA uses in the core at position `q` (R414). -/
def dmaFoot (ws : Words) (q : Nat) : Foot :=
  let d := dmOf ws
  let f := if d.copy && d.src.field && d.core = q then d.chunks.foldl (fun f x => f.read x.1 x.2.2) Foot.none else Foot.none
  if d.dst.field && d.mask.testBit q then d.chunks.foldl (fun f x => f.wrote x.2.1 x.2.2) f else f

/-- What a tile command uses in a core (R94). -/
def tileFoot (ws : Words) : Foot :=
  match hdrType ws with
  | 0x02 => drFoot ws
  | 0x03 => atFoot ws
  | 0x04 => atFoot ws
  | 0x05 => mgFoot ws
  | 0x06 => nmFoot ws
  | 0x07 => nmFoot ws
  | 0x09 => tlFoot ws
  | 0x0A => ssFoot ws
  | 0x1F => pfFoot ws
  | _ => mmFoot ws

/-- Whether an earlier command of plain `p` than `id` still holds something that `f` names in the core at position `q` (R94, R414). -/
def State.footBusy (s : State) (p q id : Nat) (f : Foot) : Bool :=
  let x := s.plain p
  (x.issued.any fun i => i.id < id && (i.runs.any fun r => r.pos = q && r.st ≠ .done) && (tileFoot i.words).conflicts f) ||
  (x.jobs.any fun j => j.id < id && ! j.coll && ! j.moved && (dmaFoot j.words q).conflicts f)

/-- `n` free values from draw `k` on. -/
def freeWords (k n : Nat) : Words := (List.range n).map fun i => Config.freeWord (k + i)

/-- Masked bytes whose values become free, those of refused requests left out (R144, R427). -/
def State.freeOut (s : State) (m : Option Nat) (bs : List (Nat × Byte × Byte)) : List (Nat × Byte × Byte) × State :=
  let ok := bs.filter fun b => (s.refused m b.1 1 true).isNone
  (ok.mapIdx fun i b => (b.1, (Config.freeWord (s.free + i)).setWidth 8, b.2.2), { s with free := s.free + ok.length })

/-- Field bytes that become free values. -/
def State.freeField (s : State) (c : Nat) (bs : List (Nat × Byte × Byte)) : State :=
  { (s.fieldWrite c (bs.mapIdx fun i b => (b.1, (Config.freeWord (s.free + i)).setWidth 8, b.2.2))) with free := s.free + bs.length }

/-- Counters of a plain's P set that become free values. -/
def State.freeP (s : State) (p : Nat) (ks : List Nat) : State :=
  let d := fun _ : Nat => List.replicate 32 (0 : W32)
  let ws := storeGet d s.cntLive (4 * p + 3)
  { s with cntLive := storePut d s.cntLive (4 * p + 3) (ks.foldl (fun l k => l.set k (Config.freeWord (s.free + k))) ws),
           free := s.free + 32 }

/-- The data of a piece (R413, R414). -/
def State.dmaData (s : State) (p : Nat) (d : Dm) (x : Nat × Nat × Nat) : Bytes :=
  if ! d.copy then List.replicate x.2.2 0
  else if d.src.field then s.fieldRead (16 * p + d.core) x.1 x.2.2
  else s.read x.1 x.2.2

/-- The poisoned lines of a piece that a copy between memories carries, by place in it (R403). -/
def State.dmaBad (s : State) (d : Dm) (x : Nat × Nat × Nat) : List Nat :=
  if ! d.copy || d.src.field || d.dst.field then [] else (List.range (x.2.2 / 64)).filter fun i => s.poisoned (x.1 + 64 * i) 64

/-- The first reason a DMA stops on its own device (R386, R397, R403). -/
def State.dmaFault (s : State) (m : Nat) (d : Dm) : Option Nat :=
  d.chunks.findSome? fun x =>
    let r := if d.copy && ! d.src.field then
        match s.refused (some m) x.1 x.2.2 false with
        | some f => some f
        | none => if d.dst.field && s.poisoned x.1 x.2.2 then some memUncorr else none
      else none
    match r with
    | some f => some f
    | none => if d.dst.field || d.remote then none else s.refused (some m) x.2.1 x.2.2 true

/-- The packets of a write to another device: one per request of at most 2,048 bytes (R382, R419, R439, R440). `mk` makes the header. -/
def State.sendPieces (s : State) (ptype vc dst runTag epoch : Nat) (evseq : W32) (a : Nat) (data : Bytes) (bad : List Nat) (o : PkOwner) : State :=
  (requestsOf a data.length).foldl (fun s x =>
    let n := min ((x / 2048 + 1) * 2048) (a + data.length) - x
    let pm := ((List.range 32).filter fun i => bad.contains ((x - a) / 64 + i)).foldl (fun w i => w + 2 ^ i) 0
    let pm := pm % 2 ^ (ceilDiv n 64)
    let (req, s) := s.takeReq
    s.sendHeld (s.mkPacket ptype vc dst runTag epoch evseq (req * 2 ^ 16 + n) x pm ((data.drop (x - a)).take n)) o) s

/-- The data of a DMA moved (R413, R414, R419): every piece is read before any is written. -/
def State.dmaMove (s : State) (p m : Nat) (j : Job) : State :=
  let d := dmOf j.words
  let ps := d.chunks.map fun x => (x, s.dmaData p d x, s.dmaBad d x)
  let c := s.ctx m
  let s := if d.copy && ! d.src.field then s.mscRead (.cmd p j.id) (d.chunks.map fun x => (x.1, x.2.2)) else s
  let s := ps.foldl (fun s q =>
    let x := q.1
    if d.dst.field then (maskPos d.mask).foldl (fun s k => s.fieldWrite (16 * p + k) (wholeBytes x.2.1 q.2.1)) s
    else if d.remote then
      s.sendPieces 1 d.vc d.dev c.runTag.toNat c.epoch.toNat 0 x.2.1 q.2.1 q.2.2 (.cmd p j.id (hdrTag j.words) j.pos j.pro false)
    else s.write (.cmd p j.id) (wholeBytes x.2.1 q.2.1) (q.2.2.map fun i => x.2.1 / 64 + i)) s
  let sum := fun f : (Nat × Nat × Nat) → Nat => (d.chunks.map f).foldl (· + ·) 0
  let s := s.addP p 20 (if d.copy then sum fun x => x.2.2 / 64 else 0)
  let s := s.addP p 21 (sum fun x => x.2.2 / 64)
  let s := s.addP p 22 (sum fun x => (if d.copy && ! d.src.field then (requestsOf x.1 x.2.2).length else 0) +
    (if d.dst.field then 0 else (requestsOf x.2.1 x.2.2).length))
  s.addP p 23 ((ps.map fun q => q.2.2.length).foldl (· + ·) 0)

/-- A DMA that stops (R144, R427): its destination bytes hold free values where they were admitted, and so do its counters. A remote one has
sent nothing (log entry 16). -/
def State.dmaStop (s : State) (p m : Nat) (j : Job) (code : Nat) : State :=
  let d := dmOf j.words
  let bs := d.chunks.flatMap fun x => wholeBytes x.2.1 (List.replicate x.2.2 0)
  let s :=
    if d.dst.field then (maskPos d.mask).foldl (fun s k => s.freeField (16 * p + k) bs) s
    else if d.remote then s
    else
      let (fs, s) := s.freeOut (some m) bs
      s.write .other fs
  (s.freeP p [20, 21, 22, 23]).faultJob p j code

/-- Whether a packet of a command is not settled. -/
def State.packetsOut (s : State) (p id : Nat) : Bool :=
  s.outst.any fun o => match o.owner with
    | .cmd q i _ _ _ _ => q = p && i = id
    | .gone _ => false
    | .ckpt => false

/-- A job of a plain replaced, and one ended. -/
def State.setJob (s : State) (p : Nat) (j : Job) : State :=
  let x := s.plain p
  s.setPlain p { x with jobs := x.jobs.map fun k => if k.id = j.id then j else k }
def State.endJob (s : State) (p id : Nat) : State :=
  let x := s.plain p
  s.setPlain p { x with jobs := x.jobs.filter fun k => k.id ≠ id }

/-- A break after the end of a DMA, COLL or PAGE_WALK, whose last delivery it was (R619). -/
def State.jobBreak (s : State) (p : Nat) (j : Job) : State :=
  if (s.plain p).jobs.any fun k => k.pos = j.pos && k.pro = j.pro then s
  else match s.owner p with
    | some m => s.breakAfter m j.words
    | none => s

/-- Whether every job before `id` in its engine's queue has started (R415). -/
def State.jobsBefore (s : State) (p id : Nat) : Bool := (s.plain p).jobs.all fun k => id ≤ k.id || ! k.waits

/-- A DMA that has moved its data ends once its writes are applied and acknowledged (R416); SIG_OBJ takes its addition. -/
def State.dmaFinish (s : State) (p : Nat) (j : Job) : State :=
  if s.packetsOut p j.id || s.writesWait p j.id then s
  else
    let d := dmOf j.words
    let s := s.endJob p j.id
    let s := if d.sig then s.addObj d.obj 1 else s
    s.jobBreak p j

/-- An uncorrectable word of Field that a DMA reads stops it, and is recorded in the core it lies in (R98, R144, R146). -/
def State.dmaEcc (s : State) (p m : Nat) (j : Job) : State :=
  (s.recordCore (16 * p + (dmOf j.words).core) 0x0809 (hdrTag j.words) none).dmaStop p m j 0x0809

/-- A DMA reads its source and writes its destination, and ends once nothing of it is outstanding (R414 to R416, log entry 17). ECC events of the
Field it reads are counted, and an uncorrectable one stops it (R98, R144). -/
def execDmaEnd (p : Fin 16) (o : DmaObs) (s : State) : Result :=
  .next (match (s.plain p).jobs.find? fun j => j.id = o.id && ! j.coll, s.owner p with
    | some j, some m =>
      if ! s.running then s
      else if j.moved then s.dmaFinish p j
      else if ! s.jobsBefore p o.id || (List.range 16).any fun q => s.footBusy p q o.id (dmaFoot j.words q) then s
      else
        let d := dmOf j.words
        let inField := d.copy && d.src.field
        let s := if inField then s.bump (offCore (16 * p + d.core) 0x34) o.ecc.corrected else s
        match s.dmaFault m d with
        | some code => s.dmaStop p m j code
        | none =>
          if inField && o.ecc.uncorr then s.dmaEcc p m j
          else
            let j' := { j with moved := true }
            ((s.dmaMove p m j).setJob p j').dmaFinish p j'
    | _, _ => s)

/-! ### PAGE_WALK -/

/-- A PAGE_WALK descriptor read (R280). -/
structure Pw where
  mask  : Nat
  per   : Nat
  mcast : Bool
  fmt   : Nat
  dHead : Nat
  shift : Nat
  table : Nat
  first : Nat
  count : Nat
  dest  : Nat

/-- The fields of a PAGE_WALK (R280). -/
def pwOf (ws : Words) : Pw :=
  let w4 := wordAt ws 4
  { mask := bits w4 31 16, per := bits w4 15 8, mcast := bit w4 7, fmt := bits w4 6 4, dHead := bits w4 3 2, shift := bits w4 1 0,
    table := dword ws 5, first := (wordAt ws 7).toNat, count := bits (wordAt ws 8) 9 0, dest := (wordAt ws 9).toNat }

/-- The bytes of a page of the walk (R278). -/
def Pw.bytes (d : Pw) : Nat := pageBytes d.fmt d.shift (2 ^ d.dHead)

/-- The slots of Field the walk names in a core (R282). -/
def Pw.slots (d : Pw) : Nat := if d.mcast then d.count else d.per

/-- The first failing check of a PAGE_WALK (R282). -/
def pwCheck (ws : Words) : Option Nat :=
  let d := pwOf ws
  if hdrReserved ws || anyBits ws [(8, 0xFFFFFC00)] || anyWords ws 10 16 then some 0x0B01
  else if pccHdrBad ws 1 || d.mask = 0 || ! (d.fmt = 1 || d.fmt = 2 || d.fmt = 5 || d.fmt = 6) || d.dHead = 3 || d.table % 8 ≠ 0 ||
      d.count = 0 || d.count > 512 || d.dest % 4096 ≠ 0 ||
      (if d.mcast then d.per ≠ 0 else d.per = 0 || d.count > d.per * (maskPos d.mask).length) then some 0x0901
  else if pastField d.dest (d.slots * d.bytes) then some 0x0804
  else none

/-- The PCC checks a PAGE_WALK and starts to read its entries (R281, R282). -/
def execPageWalk (p : Fin 16) (s : State) : Result :=
  .next (s.reach p 0x23 fun s _ ws =>
    match pwCheck ws with
    | some code => s.issueFault p code
    | none => s.setPlain p { s.plain p with hold := .walk })

/-- The descriptor of the delivery of page `q` whose entry is `e` (R281, R284): a LINEAR copy, or a LINEAR zero for a null page. -/
def pageJob (ws : Words) (d : Pw) (q e : Nat) : Words :=
  let valid := e % 2 = 1
  let mask := if d.mcast then d.mask else 2 ^ (maskPos d.mask).getD (q / d.per) 0
  let dest := d.dest + (if d.mcast then q else q % d.per) * d.bytes
  let src := if valid then e / 4096 * 4096 else 0
  [0x225#32, wordAt ws 1, wordAt ws 2, 0, BitVec.ofNat 32 ((if valid then 1 else 3) * 2 ^ 30), BitVec.ofNat 32 mask,
   0, 0, 0, 0, 0, BitVec.ofNat 32 d.bytes, 0, 0, 0, 0, BitVec.ofNat 32 src, BitVec.ofNat 32 (src / 2 ^ 32), 0, 0, 0, 0, 0, 0,
   BitVec.ofNat 32 dest, 0, 0, 0, 0x10#32, 0, 0, 0]

/-- Every entry of a walk is read; one DMA is emitted per page, in entry order (R283, R284, R286). The emission is one event, whatever room
the queue has (log entry 18). -/
def execPageWalkEntriesRead (p : Fin 16) (s : State) : Result :=
  .next (match (s.plain p).fetched, s.owner p with
    | some ws, some m =>
      if ! (s.running && (s.plain p).hold = .walk) then s
      else
        let d := pwOf ws
        let a := d.table + 8 * d.first
        match s.readFault m [(a, 8 * d.count)] with
        | some code => s.issueFault p code
        | none =>
          let es := (List.range d.count).map fun q => leNat (s.read (a + 8 * q) 8)
          let s := s.mscRead (.cmd p (s.plain p).next) [(a, 8 * d.count)]
          if es.any fun e => e % 4096 / 2 ≠ 0 then s.issueFault p 0x0903
          else
            let x := s.plain p
            let js : List Job := es.mapIdx fun q e =>
              ⟨x.next + q, pageJob ws d q e, (s.ctx m).step, x.pos + descBytes (wordAt ws 0), x.prologue, false, false, .queued, [], [], false⟩
            let n := (es.filter fun e => e % 2 = 1).length
            let s := s.setPlain p { x with jobs := x.jobs ++ js, next := x.next + d.count }
            (((s.addP p 24 n).addP p 25 (d.count - n)).addP p 26 (n * d.bytes / 64)).advance p
    | _, _ => s)

end Sys2Proof.Machine
end

