-- ==== Sys2Proof/Machine/CoreCmd.lean ====
section
/-! DEFINITION. Tile commands in their cores: start, checks of predictive commands, the exchange of norm partials, the end, and the records
of the counters (R93, R94, R123, R182, R219 to R223, R320, R356, R591 to R604). -/

namespace Sys2Proof.Machine

/-! ### Records and trace rings (R591 to R604) -/

/-- The path of a TYPE: 0 A, 1 D, 2 F (R591). -/
def pathOf (type : Nat) : Nat :=
  if type = 0x1F then 2
  else if type = 0x01 || type = 0x03 || type = 0x04 || type = 0x08 then 0 else 1

/-- The place of CMP_TABLE_LOADS among the counters of a TYPE (R596). -/
def tableLoads (type : Nat) : Option Nat :=
  match type with
  | 0x01 => some 9
  | 0x08 => some 9
  | 0x02 => some 11
  | 0x03 => some 7
  | 0x04 => some 7
  | 0x05 => some 7
  | 0x06 => some 3
  | 0x07 => some 3
  | 0x09 => some 3
  | _ => none

/-- A set of counters that counts nothing. -/
def zeroRec (_ : Nat) : Words := List.replicate 32 0

/-- Words 0 to 5 of the record of a tile command (R594). -/
def State.recHead (s : State) (p pos : Nat) (ws : Words) (live stopped : Bool) (seq : W32) : Words :=
  [hdrTag ws, wordAt ws 1, BitVec.ofNat 32 (hdrType ws * 2 ^ 24 + p % 16 * 2 ^ 20 + pos % 16 * 2 ^ 16 + pathOf (hdrType ws) * 2 ^ 14 +
    b2n live * 2 ^ 13 + b2n stopped * 2 ^ 12), seq, s.time.setWidth 32, (s.time >>> 32).setWidth 32]

/-- The cycle and stall words of a record are free values, words that R595 leaves unused zero: words 6 to 19, or 7 to 19 for a P set. -/
def stallWords (k path : Nat) : Words :=
  let n := if path = 1 then 7 else 8
  freeWords k n ++ List.replicate ((if path = 3 then 13 else 14) - n) 0

/-- TRACE_ERROR, and the code of a refused trace write (R604). -/
def cnTrace : Nat := 0x1401

/-- A record appended to the trace ring of context `m` (R602, R604); `plain` for a record of a P set. -/
def State.trace (s : State) (m : Nat) (r : Words) (plain : Bool) : State :=
  let o := 0xA0200 + 0x10 * m
  let cfg := s.reg (o + 8)
  if bit cfg 31 && bit cfg (if plain then 7 else 6) then
    let k := (s.reg (o + 12)).toNat
    let a := s.pairVal o + 128 * (k % 2 ^ (min 24 (max 10 (bits cfg 4 0))))
    match s.refused (some m) a 128 true with
    | none => (s.write (.trace m) (wholeBytes a (bytesOf r))).setReg (o + 12) (s.reg (o + 12) + 1)
    | some _ =>
      let s := s.setBits (o + 8) 0xC0000000#32 0x40000000#32
      let s := s.logAdd logFault (some m) cnTrace 0 0 0 (s.ctx m).step.toNat 0
      s.post m (cplWords s 0x23 0 cnTrace m 0 0 (s.ctx m).step 0 [BitVec.ofNat 32 m])
  else s

/-- How many counters R596 lists for a TYPE. -/
def listedCounters (type : Nat) : Nat :=
  match type with
  | 0x01 => 12
  | 0x08 => 12
  | 0x02 => 12
  | 0x03 => 8
  | 0x04 => 8
  | 0x05 => 8
  | 0x06 => 4
  | 0x07 => 4
  | 0x09 => 4
  | 0x1F => 3
  | _ => 1

/-- Counters of a command that was cut short or still runs: free values where R596 lists one, zero elsewhere. -/
def openCounters (k type : Nat) : Words := freeWords k (listedCounters type) ++ List.replicate (12 - listedCounters type) 0

/-- The global cycle counters that a record adds to (R600): words 8 to 13 and 6 of path A, word 6 of path D. -/
def State.addStalls (s : State) (path : Nat) (r : Words) : State :=
  if path = 0 then (List.range 6).foldl (fun s i => s.addGlb i (wordAt r (8 + i)).toNat) (s.addGlb 6 (wordAt r 6).toNat)
  else if path = 1 then s.addGlb 7 (wordAt r 6).toNat
  else s

/-- A record copied into the shadow of a path of core `16p + pos`, and appended to the trace ring (R591, R602). -/
def State.copyRecord (s : State) (p pos : Nat) (ws : Words) (stopped : Bool) (counters : Words) : State :=
  let path := pathOf (hdrType ws)
  let k := (16 * p + pos) * 4 + path
  let seq := wordAt (storeGet zeroRec s.cntShadow k) 3 + 1
  let r := s.recHead p pos ws false stopped seq ++ stallWords s.free path ++ counters
  let s := { s with cntShadow := storePut zeroRec s.cntShadow k r, free := s.free + 14 }.addStalls path r
  match s.owner p with
  | some m => s.trace m r false
  | none => s

/-- The counters of a run that ended (R596): CMP_TABLE_LOADS depends on what the core still held, a free value where the command names tables. -/
def State.runCounters (s : State) (i : Issued) (r : CoreRun) : Words × State :=
  match tableLoads (hdrType i.words) with
  | some k => if i.gens = [] then (r.ctr, s) else (r.ctr.set k (Config.freeWord s.free), { s with free := s.free + 1 })
  | none => (r.ctr, s)

/-! ### Effects applied -/

/-- Tiles written (R100). -/
def State.applyTiles (s : State) (c : Nat) (ts : List (Bool × Nat × Words)) : State := ts.foldl (fun s t => s.setTile t.1 c t.2.1 t.2.2) s

/-- Tiles whose contents become free values. -/
def State.freeTiles (s : State) (c : Nat) (ts : List (Bool × Nat)) : State :=
  ts.foldl (fun s t => { (s.setTile t.1 c t.2 (freeWords s.free 4096)) with free := s.free + 4096 }) s

/-- Additions to histogram words, which stop at their largest value (R362). -/
def State.addHist (s : State) (p id : Nat) (l : List (Nat × Nat)) : State :=
  l.foldl (fun s h => s.write (.cmd p id) (wholeBytes h.1 (leBytes 4 (min (2 ^ 32 - 1) (leNat (s.read h.1 4) + h.2))))) s

/-- Additions to statistics lanes (R327). -/
def State.addStats (s : State) (p id : Nat) (l : List (Nat × W32)) : State :=
  l.foldl (fun s h => s.write (.cmd p id) (wholeBytes h.1 (leBytes 4 (fadd (BitVec.ofNat 32 (leNat (s.read h.1 4))) h.2).toNat))) s

/-- The bytes of a list of Field ranges. -/
def rangeBytes (l : List (Nat × Nat)) : List (Nat × Byte × Byte) := l.flatMap fun r => wholeBytes r.1 (List.replicate r.2 0)

/-- What a command does in core `c`, applied. -/
def State.applyEff (s : State) (p id c : Nat) (e : Eff) : State :=
  let s := (s.applyTiles c e.tiles).freeTiles c (e.freeTiles.map fun t => (false, t))
  let s := (s.fieldWrite c e.field).freeField c (rangeBytes e.scratch)
  let s := e.holds.foldl (fun s h => s.setHold h.1 c h.2.1 h.2.2) s
  let s := s.mscRead (.cmd p id) e.reads
  let s := s.write (.cmd p id) e.writes
  (s.addHist p id e.hist).addStats p id e.stats

/-- What a command that stops leaves in core `c` (R144, R145): its destination tiles, and the outputs it had not finished there, hold free values. -/
def State.applyStop (s : State) (m c : Nat) (e : Eff) (finished : Bool) : State :=
  let s := s.freeTiles c (e.tiles.map (fun t => (t.1, t.2.1)) ++ e.freeTiles.map fun t => (false, t))
  if finished then s
  else
    let s := s.freeField c (e.field ++ rangeBytes e.scratch)
    let (fs, s) := s.freeOut (some m) (e.writes ++ e.hist.flatMap (fun h => wholeBytes h.1 [0, 0, 0, 0]) ++
      e.stats.flatMap fun h => wholeBytes h.1 [0, 0, 0, 0])
    s.write .other fs

/-- Why the writes of a command stop it (R386, R397). -/
def State.effFault (s : State) (m : Nat) (e : Eff) : Option Nat :=
  match e.fault with
  | some f => some f
  | none => s.writeFault m (e.writes ++ e.hist.map (fun h => (h.1, 0, 0)) ++ e.stats.map fun h => (h.1, 0, 0))

/-- A command of a plain replaced. -/
def State.setIssued (s : State) (p : Nat) (i : Issued) : State :=
  let x := s.plain p
  s.setPlain p { x with issued := x.issued.map fun j => if j.id = i.id then i else j }

/-- A run of a command replaced. -/
def Issued.setRun (i : Issued) (r : CoreRun) : Issued := { i with runs := i.runs.map fun q => if q.pos = r.pos then r else q }

/-! ### Start -/

/-- Whether a norm command spreads its rows over more cores than one (R320). -/
def exchanges (i : Issued) : Bool := (hdrType i.words = 0x06 || hdrType i.words = 0x07) && i.runs.length ≠ 1

/-- The rank of a position in a command's mask. -/
def rankOf (ws : Words) (pos : Nat) : Nat := ((maskPos (hdrMask ws)).takeWhile fun q => q ≠ pos).length

/-- What a tile command does in core `c` of rank `r` when it starts. -/
def State.tileStart (s : State) (m c r : Nat) (i : Issued) : Eff :=
  let ws := i.words
  let g := i.gens
  match hdrType ws with
  | 0x02 => s.drStart m c r ws g
  | 0x03 => s.fwdStart m c r ws g
  | 0x04 => s.bwdStart m c r ws g
  | 0x05 => s.mgStart m c ws g
  | 0x06 =>
    let f := s.nmFault m c r ws g
    if exchanges i then { Eff.none with fault := f, reads := (nmOf ws).runs r }
    else { (s.nmFinish m c r 1 (fun _ => c) ws g) with fault := f, reads := (nmOf ws).runs r }
  | 0x07 =>
    let f := s.nmFault m c r ws g
    if exchanges i then { Eff.none with fault := f, reads := (nmOf ws).runs r }
    else { (s.nmFinish m c r 1 (fun _ => c) ws g) with fault := f, reads := (nmOf ws).runs r }
  | 0x08 => s.wgStart m c r ws g
  | 0x09 => s.tlStart m c r ws g
  | 0x0A => s.ssStart m ws
  | 0x1F => s.pfStart m c r ws
  | _ => s.mmStart m c r ws g

/-- The destinations of a command in one of its cores: what it does there when it starts, or finishes after an exchange. -/
def State.destinations (s : State) (p m : Nat) (i : Issued) (pos : Nat) : Eff :=
  let r := rankOf i.words pos
  if exchanges i then s.nmFinish m (16 * p + pos) r i.runs.length (coreOf i.words (16 * p)) i.words i.gens
  else s.tileStart m (16 * p + pos) r i

/-- A run of a command that ends by a fault, copied into its record if it had started (R591, R594): a core that had finished knows its counters,
those of another are free values. -/
def State.stopRecord (s : State) (p : Nat) (i : Issued) (q : CoreRun) : State :=
  match q.st with
  | .queued => s
  | .done =>
    let (ctr, s) := s.runCounters i q
    s.copyRecord p q.pos i.words true ctr
  | _ =>
    let k := s.free
    ({ s with free := k + 12 }).copyRecord p q.pos i.words true (openCounters k (hdrType i.words))

/-- A command stops in core `16p + pos` with a code (R144, R201, R294, R594): in every core it names, its destinations hold free values, but
nothing was written by one that stops for its positions or its length table (R294). -/
def State.stopRun (s : State) (p m pos : Nat) (i : Issued) (code : Nat) : State :=
  let i := i.setRun { (i.runs.find? fun q => q.pos = pos).getD ⟨pos, .started, [], []⟩ with st := .started }
  let s := if code = rotRange || code = lenTable then s
    else i.runs.foldl (fun s q => s.applyStop m (16 * p + q.pos) (s.destinations p m i q.pos) (q.st = .done)) s
  (i.runs.foldl (fun s q => s.stopRecord p i q) s).faultIssued p i (16 * p + pos) code

/-- The core in which a stop is found: for a position outside ROT, the lowest that would rotate it (R146, R252). -/
def State.stopPos (s : State) (i : Issued) (pos code : Nat) : Nat :=
  if code ≠ rotRange then pos
  else
    let d := atOf i.words
    ((maskPos (hdrMask i.words)).find? fun q => d.rotFails (s.atTable d) (rankOf i.words q)).getD pos

/-- Whether a started command has more to do before it can end: a check and a commit (R219), or an exchange (R320). -/
def unfinished (i : Issued) : Bool := (hdrType i.words = 0x01 && (mmOf i.words).spec = 1) || exchanges i

/-- The oldest command queued in the core at position `c` (R93). -/
def State.oldest (s : State) (p c : Nat) : Option Issued :=
  (s.plain p).issued.find? fun i => i.runs.any fun r => r.pos = c && r.st = .queued

/-- Whether a path of a core still works on an earlier command (R93). -/
def State.pathBusy (s : State) (p c : Nat) (i : Issued) : Bool :=
  (s.plain p).issued.any fun j => j.id < i.id && pathOf (hdrType j.words) = pathOf (hdrType i.words) && j.runs.any fun r => r.pos = c

/-- The oldest command queued in a core starts, once its path is free and nothing it depends on is in use (R93, R94). It works in one event:
what it reads, it reads now (log entry 19). ECC events of the core are counted, and an uncorrectable one stops the command (R98, R144). -/
def execCoreCmdStart (p c : Fin 16) (ecc : CoreEcc) (s : State) : Result :=
  .next (match s.oldest p c, s.owner p with
    | some i, some m =>
      if ! s.running || s.pathBusy p c i || s.footBusy p c i.id (tileFoot i.words) then s
      else
        let core := 16 * p.val + c.val
        let e := s.tileStart m core (rankOf i.words c) i
        let s := s.bump (offCore core 0x34) ecc.corrected
        match (if ecc.uncorr then some 0x0809 else s.effFault m e) with
        | some code => s.stopRun p m (s.stopPos i c code) i code
        | none =>
          (s.applyEff p i.id core e).setIssued p
            (i.setRun ⟨c, if unfinished i then .started else .done, e.ctr, e.keep⟩)
    | _, _ => s)

/-! ### Predictive MATMUL -/

/-- The oldest command of a core whose run is in a state. -/
def State.runIn (s : State) (p c : Nat) (st : RunState) : Option (Issued × CoreRun) :=
  (s.plain p).issued.findSome? fun i => (i.runs.find? fun r => r.pos = c && r.st = st).map fun r => (i, r)

/-- The current map's bits arrive: mispredicted blocks are found and their block rows computed again (R220). ECC events of what it reads again are
counted, and an uncorrectable one stops the command (R98, R144). -/
def execSpecMapCheck (p : Fin 16) (o : CoreObs) (s : State) : Result :=
  .next (match s.runIn p o.core .started, s.owner p with
    | some (i, r), some m =>
      if ! s.running || hdrType i.words ≠ 0x01 then s
      else
        let core := 16 * p.val + o.core.val
        let e := s.mmCheck m core (rankOf i.words o.core) i.words i.gens r.keep r.ctr
        let s := s.bump (offCore core 0x34) o.ecc.corrected
        match (if o.ecc.uncorr then some 0x0809 else s.effFault m e) with
        | some code => s.stopRun p m o.core i code
        | none => (s.applyEff p i.id core e).setIssued p (i.setRun ⟨o.core, .checked, e.ctr, e.keep⟩)
    | _, _ => s)

/-- Whether every core of a predictive MATMUL has checked its prediction (R221): only then does a map they share change. -/
def Issued.allChecked (i : Issued) : Bool := i.runs.all fun q => q.st = .checked || q.st = .done

/-- A predictive MATMUL commits: the current bits of the blocks it used become the next prediction (R221, R223). -/
def execSpecCommit (p c : Fin 16) (s : State) : Result :=
  .next (match s.runIn p c .checked, s.owner p with
    | some (i, r), some m =>
      if ! s.running || ! i.allChecked then s
      else
        let d := mmOf i.words
        let e := { Eff.none with reads := d.mapRuns (d.zmap + d.mapBytes) (rankOf i.words c), writes := s.mmCommit (rankOf i.words c) i.words }
        match s.effFault m e with
        | some code => s.stopRun p m c i code
        | none =>
          ((s.applyEff p i.id (16 * p.val + c.val) e).bump (offPln p 0x18) (wordAt r.ctr 8).toNat).setIssued p
            (i.setRun { r with st := .done })
    | _, _ => s)

/-! ### Norm commands -/

/-- The partial sums of every rank of a norm command are combined in ascending rank, and every core finishes its rows (R320 to R322). ECC events in core
`c` are counted, and an uncorrectable one stops the command (R98, R144). -/
def execRankExchange (p : Fin 16) (o : RankObs) (s : State) : Result :=
  .next (match (s.plain p).issued.find? fun i => i.id = o.id, s.owner p with
    | some i, some m =>
      if ! (s.running && exchanges i && i.runs.all fun r => r.st = .started) then s
      else
        let es := i.runs.map fun r => (r, s.nmFinish m (16 * p.val + r.pos) (rankOf i.words r.pos) i.runs.length (coreOf i.words (16 * p)) i.words i.gens)
        let named := i.runs.any fun r => r.pos = o.core.val
        let s := if named then s.bump (offCore (16 * p.val + o.core.val) 0x34) o.ecc.corrected else s
        match (if named && o.ecc.uncorr then some (o.core.val, 0x0809) else es.findSome? fun e => (s.effFault m e.2).map fun f => (e.1.pos, f)) with
        | some (pos, code) => s.stopRun p m pos i code
        | none =>
          let s := es.foldl (fun s e => s.applyEff p o.id (16 * p.val + e.1.pos) e.2) s
          s.setIssued p { i with runs := es.map fun e => { e.1 with st := .done, ctr := e.2.ctr, keep := e.2.keep } }
    | _, _ => s)

/-! ### End -/

/-- A command that has finished in every core, with its writes at their home slices, ends in all of them at once (R123, log entry 19): its
records are copied, DONE_OBJ is signalled (R182), its references are released (R348, R356), and a break after the end may match (R619). -/
def execTileCmdEnd (p : Fin 16) (id : Nat) (s : State) : Result :=
  .next (match (s.plain p).issued.find? fun i => i.id = id, s.owner p with
    | some i, some m =>
      if ! s.running || (i.runs.any fun r => r.st ≠ .done) || s.writesWait p id then s
      else
        let s := i.runs.foldl (fun s r =>
          let (ctr, s) := s.runCounters i r
          s.copyRecord p r.pos i.words false ctr) s
        let x := s.plain p
        let s := (s.setPlain p { x with issued := x.issued.filter fun j => j.id ≠ id }).sweepSlots
        let s := s.addGlb 14 1
        let s := if hdrDoneEn i.words then s.addObj (hdrDoneObj i.words) 1 else s
        s.breakAfter m i.words
    | _, _ => s)

/-- A background request is served as urgent: timing only (R214). -/
def execBgPrefetchPromote (_p : Fin 16) (_id : Nat) (s : State) : Result := .next s

end Sys2Proof.Machine
end

