-- ==== Sys2Proof/Machine/Sched.lean ====
section
/-! DEFINITION. Arming, starting, pausing and disarming a context (R156 to R173, R227, R389, R505, R700). -/

namespace Sys2Proof.Machine

/-! ### The image (R156 to R165, R700) -/

/-- An entry of the section table (R158). -/
structure Sect where
  kind  : Nat
  index : Nat
  bytes : Nat
  off   : Nat
  resv  : Bool

/-- The `n` entries of a section table. -/
def sectsOf (n : Nat) (bs : Bytes) : List Sect :=
  (List.range n).map fun i =>
    let ws := wordsOf 4 (bs.drop (16 * i))
    ⟨bits (wordAt ws 0) 15 0, bits (wordAt ws 0) 23 16, (wordAt ws 1).toNat, dword ws 2, bits (wordAt ws 0) 31 24 ≠ 0⟩

/-- Whether a section is a stream. -/
def Sect.stream (x : Sect) : Bool := x.kind = 1 || x.kind = 2

/-- Whether a section-table entry breaks R158, R159 or R163; `bytes` is the size of the image. -/
def Sect.bad (x : Sect) (bytes plains : Nat) : Bool :=
  x.resv || ! (x.stream || x.kind = 3 || x.kind = 4 || x.kind = 0x10) || (if x.stream then plains ≤ x.index else x.index ≠ 0) ||
  x.off % 64 ≠ 0 || x.off + x.bytes > bytes || (x.stream && x.bytes % 64 ≠ 0) || ((x.kind = 3 || x.kind = 4) && x.bytes % 16 ≠ 0)

/-- Whether the counts of R159 hold. -/
def sectCounts (l : List Sect) (plains : Nat) : Bool :=
  let n := fun k i => (l.filter fun x => x.kind = k && x.index = i).length
  ((List.range plains).all fun i => n 1 i ≤ 1 && n 2 i = 1) && n 3 0 ≤ 1 && n 4 0 ≤ 1

/-- The entries of 16 bytes of a section. -/
def entries16 (bs : Bytes) : List Words := (List.range (bs.length / 16)).map fun i => wordsOf 4 (bs.drop (16 * i))

/-- A SYNC_INIT entry that breaks R164 or names an object the context does not own. -/
def State.syncInitBad (s : State) (m : Nat) (ws : Words) : Bool :=
  bits (wordAt ws 0) 31 14 ≠ 0 || wordAt ws 3 ≠ 0 || ! s.ownsObj m (bits (wordAt ws 0) 13 0)

/-- The place of a random stream in the order of R165. -/
def rngKey (ws : Words) : Nat := (wordAt ws 0).toNat * 16 + bits (wordAt ws 1) 3 0

/-- Whether RNG_STREAMS entries keep R165. -/
def rngSorted : List Words → Bool
  | a :: b :: r => rngKey a < rngKey b && rngSorted (b :: r)
  | _ => true

/-- An image as arming takes it in. -/
structure Image where
  bytes   : Nat
  digest  : Bytes
  streams : List Stream
  init    : List Words
  rng     : List Words

/-- IMAGE_INVALID and IMAGE_DIGEST (R203). -/
def imageInvalid : Nat := 0x0B02
def imageDigest : Nat := 0x0B03

/-- The image at `a` checked on behalf of context `m`: the status that refuses it, or what it holds (R157, R389, R700). The
sections are read before their contents are checked, so that a read that is refused comes before an invalid entry (DESIGN CHOICE, log entry 145). -/
def State.readImage (s : State) (m a : Nat) : Except Nat Image :=
  match s.readFault m [(a, 128)] with
  | some f => .error f
  | none =>
    let h := wordsOf 32 (s.read a 128)
    let bytes := dword h 2
    let plains := bits (wordAt h 4) 4 0
    let n := bits (wordAt h 5) 15 0
    let tab := dword h 6
    if wordAt h 0 ≠ 0x4B534C54#32 || bits (wordAt h 1) 31 16 ≠ 1 || bits (wordAt h 4) 31 5 ≠ 0 || bits (wordAt h 5) 31 16 ≠ 0 ||
        anyWords h 8 16 || plains = 0 || plains ≠ (s.plainsOf m).length || n = 0 || tab % 64 ≠ 0 || bytes < 128 || tab + 16 * n > bytes then
      .error imageInvalid
    else match s.readFault m [(a + tab, 16 * n)] with
    | some f => .error f
    | none =>
      let l := sectsOf n (s.read (a + tab) (16 * n))
      if (l.any fun x => x.bad bytes plains) || ! sectCounts l plains then .error imageInvalid
      else
        let of := fun k => (l.filter fun x => x.kind = k).map fun x => (a + x.off, x.bytes)
        match s.readFault m (of 3 ++ of 4) with
        | some f => .error f
        | none =>
          let get := fun k => (of k).flatMap fun r => entries16 (s.read r.1 r.2)
          let init := get 3
          let rng := get 4
          if (init.any fun e => s.syncInitBad m e) || (rng.any fun e => bits (wordAt e 1) 31 4 ≠ 0 || wordAt e 3 ≠ 0) || ! rngSorted rng then
            .error imageInvalid
          else match s.readFault m [(a, bytes)] with
          | some f => .error f
          | none =>
            let dg := s.read (a + 64) 64
            if sha512 (s.read a 64 ++ List.replicate 64 0 ++ s.read (a + 128) (bytes - 128)) ≠ dg then .error imageDigest
            else .ok ⟨bytes, dg, (l.filter fun x => x.stream).map (fun x => ⟨x.kind = 2, x.index, a + x.off, x.bytes⟩), init, rng⟩

/-! ### Run records -/

/-- A refusal of R170: a CTX_STATE entry with CODE HIF_CTX_STATE and the state unchanged. -/
def hifCtxState : Nat := 0x0204
def State.refuseState (s : State) (m : Nat) : State :=
  let c := s.ctx m
  s.logAdd logCtxState (some m) hifCtxState 0 0 c.st.code c.st.code c.step.toNat

/-- Every sync object of a context set to zero (R169, R241). -/
def State.clearObjs (s : State) (m : Nat) : State :=
  let clr := fun (st : Store W32) (w : W32) => if bit w 31 then storeClear st (bits w 13 0) (bits w 29 16 + 1) else st
  { s with objs := clr (clr s.objs (s.reg (0x50100 + 8 * m))) (s.reg (0x50104 + 8 * m)) }

/-- An accepted image armed (R169): the objects start where step `first` finds them, the last entry that names an object prevailing (DESIGN CHOICE, log
entry 144), and every plain stands before its first command. -/
def State.armWith (s : State) (m : Nat) (tag : BitVec 16) (a : Nat) (first count : W32) (seed : W64) (i : Image) (verify : Option Bytes) : State :=
  let s := i.init.foldl (fun s e => s.setObj (bits (wordAt e 0) 13 0) (wordAt e 1 + wordAt e 2 * first)) (s.clearObjs m)
  let s := s.mscRead (.pair m) [(a, i.bytes)]
  let c := s.ctx m
  let c' := { c with
    runTag := tag, seed := seed, step := first, firstStep := first, stepCount := count, stepsDone := 0, image := a,
    digest := i.digest, streams := i.streams, rng := i.rng, verify := verify }
  let s := (s.setCtx m c').setCtxState m .armed
  (s.plainsOf m).foldl (fun s p =>
    s.setPlain p { s.plain p with prologue := (s.streamOf p false).isSome, pos := 0, fetched := none, hold := .none, resume := false }) s

/-- A run record of 16 words given to context `m`: the status and the state (R169, R170, R389). -/
def State.arm (s : State) (m : Nat) (r : Words) : Nat × State :=
  if bits (wordAt r 0) 15 0 ≠ 0 || anyWords r 7 16 then (0x0B01, s)
  else if (s.ctx m).st ≠ .idle then (hifCtxState, s.refuseState m)
  else match s.readImage m (dword r 1) with
  | .error f => (f, s)
  | .ok i => (0, s.armWith m (BitVec.ofNat 16 (bits (wordAt r 0) 31 16)) (dword r 1) (wordAt r 3) (wordAt r 4)
      (BitVec.ofNat 64 (dword r 5)) i none)

/-- A PCC starts a stream at its first command (R172, R175). -/
def State.startPcc (s : State) (p : Nat) (prologue : Bool) : State :=
  s.setPlain p { s.plain p with pcc := .issuing, prologue := prologue, pos := 0, fetched := none, hold := .none }

/-- The P set of a plain counts from zero (R592). -/
def State.clearP (s : State) (p : Nat) : State :=
  { s with cntLive := storePut (fun _ => List.replicate 32 (0 : W32)) s.cntLive (4 * p + 3) (List.replicate 32 0) }

/-- A plain starts a step with its context: its P set counts from zero (R592). -/
def State.startPlain (s : State) (p : Nat) (prologue : Bool) : State :=
  ((s.setPlain p { s.plain p with lastTag := 0 }).clearP p).startPcc p prologue

/-- START (R168, R170, R172): the status and the state. -/
def State.startCtx (s : State) (m : Nat) : Nat × State :=
  let c := s.ctx m
  if c.st = .armed then
    let s := (s.setCtx m { c with stepsDone := 0 }).setCtxState m .running
    (0, (s.plainsOf m).foldl (fun s p => s.startPlain p (s.streamOf p false).isSome) s)
  else if c.st = .paused then
    let s := s.setCtxState m .running
    (0, (s.plainsOf m).foldl (fun s p => s.startPlain p false) s)
  else (hifCtxState, s.refuseState m)

/-- DISARM (R168, R170): the status and the state. -/
def State.disarmCtx (s : State) (m : Nat) : Nat × State :=
  let c := s.ctx m
  if c.st = .running then (hifCtxState, s.refuseState m)
  else if c.st = .idle then (0, s)
  else (0, (s.plainsOf m).foldl (fun s p => s.setPlain p { s.plain p with pcc := .idle, fetched := none, hold := .none, resume := false }) (s.setCtxState m .idle))

/-- PAUSE takes a value (R227, R505). -/
def State.pauseCtx (s : State) (m : Nat) (v : Bool) : State := s.setCtx m { s.ctx m with pause := v }

/-- Whether requester `v` may reach the context group of `m`: the context's own view, the privileged map and the management core (R493). -/
def ownView (v m : Nat) : Bool := v = m || 16 ≤ v

/-- A write of SCH_CTX_CTRL with START and without DISARM (R170, R227). -/
def execSchCtxCtrlStart (v : Nat) (m : Fin 16) (pause : Bool) (s : State) : Result :=
  .next (s.regGate (ownView v m) v (offSch m 4) (BitVec.ofNat 32 (1 + 2 * b2n pause)) fun s => ((s.pauseCtx m pause).startCtx m).2)

/-- A write of SCH_CTX_CTRL with DISARM and without START (R170, R227). -/
def execSchCtxCtrlDisarm (v : Nat) (m : Fin 16) (pause : Bool) (s : State) : Result :=
  .next (s.regGate (ownView v m) v (offSch m 4) (BitVec.ofNat 32 (4 + 2 * b2n pause)) fun s => ((s.pauseCtx m pause).disarmCtx m).2)

/-- A write of SCH_CTX_CTRL with neither START nor DISARM (R227). -/
def execSchCtxCtrlPause (v : Nat) (m : Fin 16) (pause : Bool) (s : State) : Result :=
  .next (s.regGate (ownView v m) v (offSch m 4) (BitVec.ofNat 32 (2 * b2n pause)) fun s => s.pauseCtx m pause)

end Sys2Proof.Machine
end

