-- ==== Sys2Proof/Machine/Pcc.lean ====
section
/-! DEFINITION. The plain control core: its stream, SIGNAL, WAIT, CMP_TABLE, SNAPSHOT and the queue waits (R163, R178 to R204, R352 to R357,
R541, R707). -/

namespace Sys2Proof.Machine

/-- PCC_CMD_INVALID, STREAM_END, SYNC_RANGE, SYNC_OWNER, SYNC_GLOBAL, SYNC_TIMEOUT and LNK_UNREACHABLE (R203, R479). -/
def pccInvalid : Nat := 0x0901
def streamEnd : Nat := 0x0902
def syncRange : Nat := 0x0A01
def syncOwner : Nat := 0x0A02
def syncGlobal : Nat := 0x0A03
def syncTimeout : Nat := 0x0A04
def lnkUnreachable : Nat := 0x0E02

/-! ### The stream -/

/-- The TYPEs assigned (R178). -/
def typeKnown (t : Nat) : Bool := (1 ≤ t && t ≤ 0x0A) || t = 0x1F || (0x20 ≤ t && t ≤ 0x27)

/-- A fault in reading a plain's own stream, found from byte `off` of the section on (R707). -/
def State.streamFault (s : State) (p m code : Nat) (a off n : Nat) : State :=
  let tag := (s.plain p).lastTag
  let first := ((List.range n).find? fun i => (s.readFault m [(a + off + i, 1)]).isSome).getD 0
  s.fault p code tag tag true 1 p (off + first)

/-- A stream that ends without its STEP_END names no command, so that PLN_FAULT_TAG and PLN_NEXT_TAG hold free values (R203). -/
def State.streamOver (s : State) (p : Nat) : State :=
  let k := s.free
  ({ s with free := k + 2 }).fault p streamEnd (Config.freeWord k) (Config.freeWord (k + 1)) false 1 p 0

/-- The bytes of the next command arrive (R163, R178, R203, R707); after its PROLOGUE stream a plain runs its STEP stream (R172). -/
def execStreamFetchEnd (p : Fin 16) (s : State) : Result :=
  .next (
    let x := s.plain p
    match s.owner p with
    | none => s
    | some m =>
      if ! s.running || s.barred p m || x.pcc ≠ .issuing || x.hold ≠ .none || x.fetched ≠ none then s
      else
        let pro := x.prologue && (match s.streamOf p false with | some st => x.pos < st.bytes | none => false)
        let pos := if x.prologue && ! pro then 0 else x.pos
        match s.streamOf p (! pro) with
        | none => s
        | some st =>
          let s := s.setPlain p { x with prologue := pro, pos := pos }
          if st.bytes ≤ pos then s.streamOver p
          else match s.readFault m [(st.addr + pos, 64)] with
          | some f => s.streamFault p m f st.addr pos 64
          | none =>
            let h := wordsOf 16 (s.read (st.addr + pos) 64)
            let n := 64 * max 1 (hdrLen h)
            if pos + n > st.bytes then (s.setPlain p { s.plain p with fetched := some h }).issueFault p streamEnd
            else match s.readFault m [(st.addr + pos, n)] with
            | some f => s.streamFault p m f st.addr pos n
            | none =>
              let ws := wordsOf (n / 4) (s.read (st.addr + pos) n)
              let s := s.mscRead (.cmd p x.next) [(st.addr + pos, n)]
              let s := s.setPlain p { s.plain p with fetched := some ws }
              if typeKnown (hdrType ws) then s
              else
                let code := if hdrReserved ws then 0x0B01 else 0x0805
                if hdrType ws < 0x20 && hdrMask ws ≠ 0 then s.issueFaultCore p (16 * p + (maskPos (hdrMask ws)).headD 0) code none
                else s.issueFault p code)

/-- The issue checks of a tile command by TYPE (R142). -/
def State.tileSpecOf (s : State) (m : Nat) (ws : Words) : TileSpec :=
  match hdrType ws with
  | 0x02 => s.drSpec m ws
  | 0x03 => atSpec ws
  | 0x04 => atSpec ws
  | 0x05 => mgSpec ws
  | 0x06 => nmSpec ws
  | 0x07 => nmSpec ws
  | 0x08 => wgSpec ws
  | 0x09 => tlSpec ws
  | 0x0A => s.ssSpec m ws
  | 0x1F => pfSpec ws
  | _ => mmSpec ws

/-- A queue that was full has room: the command that waits is placed, without a second check (R180, R417). -/
def execIssueFullEnd (p : Fin 16) (s : State) : Result :=
  .next (match (s.plain p).fetched, s.owner p with
    | some ws, some m =>
      if ! (s.running && (s.plain p).hold = .issueFull) then s
      else if hdrType ws = 0x25 then s.placeJob p m false
      else if hdrType ws = 0x26 then s.placeJob p m true
      else
        let d := s.tileSpecOf m ws
        s.place p m d.tiles (s.takeRefs d.handles ++ (if hdrType ws = 0x03 then s.pageRefs m (atOf ws) else []))
    | _, _ => s)

/-- A PCC command completes: the PCC goes on, and a break after the command may match (R180, R619). -/
def State.pccDone (s : State) (p m : Nat) (ws : Words) : State := (s.advance p).breakAfter m ws

/-! ### SIGNAL (R186 to R192) -/

/-- A SIGNAL descriptor read (R186). -/
structure Sg where
  glob  : Bool
  fence : Nat
  obj   : Nat
  add   : Nat
  count : Nat
  dev   : Nat

/-- The fields of a SIGNAL (R186); `count` is COUNT_M1. -/
def sgOf (ws : Words) : Sg :=
  let w4 := wordAt ws 4
  let w6 := wordAt ws 6
  ⟨bit w4 31, bits w4 30 29, bits w4 13 0, bits (wordAt ws 5) 15 0, bits w6 27 16, bits w6 11 0⟩

/-- The devices a global SIGNAL names, ascending (R187). -/
def Sg.devices (d : Sg) : List Nat := (List.range (d.count + 1)).map fun i => d.dev + i

/-- Whether a device ID is this device's own (R480). -/
def State.isSelf (s : State) (d : Nat) : Bool := s.devValid && d = s.devId

/-- The first failing check of a SIGNAL (R189). -/
def State.sgCheck (s : State) (m : Nat) (ws : Words) : Option Nat :=
  let d := sgOf ws
  if hdrReserved ws || anyBits ws [(4, 0x1FFFC000), (5, 0xFFFF0000), (6, 0xF000F000)] || anyWords ws 7 16 then some 0x0B01
  else if pccHdrBad ws 1 || d.fence = 3 || d.add = 0 || (! d.glob && (d.count ≠ 0 || d.dev ≠ 0)) then some pccInvalid
  else if d.glob && (4096 ≤ d.obj || d.dev + d.count > 4095) then some syncGlobal
  else if (! d.glob || d.devices.any fun x => s.isSelf x) && ! s.ownsObj m d.obj then some syncOwner
  else if d.glob && d.devices.any fun x => ! s.isSelf x && ! (s.devValid && s.reachable x) then some lnkUnreachable
  else none

/-- Whether the writes of a plain that copy-on-write holds back have all landed. -/
def State.plainWrites (s : State) (p : Nat) : Bool := s.cow.waiting.any fun w => match w.owner with | .cmd q _ => q = p | _ => false

/-- Whether a packet of a plain other than a SIGNAL's is not settled. -/
def State.dataOut (s : State) (p : Nat) : Bool :=
  s.outst.any fun o => match o.owner with
    | .cmd q _ _ _ _ sig => q = p && ! sig
    | .gone _ => false
    | .ckpt => false

/-- Whether the fence of a SIGNAL is met (R190, R286, R416, R471). -/
def State.fenceMet (s : State) (p fence : Nat) : Bool :=
  fence = 0 || ((s.plain p).issued.isEmpty && (s.plain p).jobs.isEmpty && ! s.plainWrites p && (fence = 1 || ! s.dataOut p))

/-- A SIGNAL is sent (R187): additions on this device are made at once, the others leave as SIGNAL packets. -/
def State.sendSignal (s : State) (p m : Nat) (ws : Words) : State :=
  let d := sgOf ws
  let x := s.plain p
  let c := s.ctx m
  let s :=
    if ! d.glob then s.addObj d.obj d.add
    else d.devices.foldl (fun s dev =>
      if s.isSelf dev then s.addObj d.obj d.add
      else
        let (req, s) := s.takeReq
        s.sendHeld (s.mkPacket 4 0 dev c.runTag.toNat c.epoch.toNat 0 (req * 2 ^ 16) (d.obj + d.add * 2 ^ 32) 0 [])
          (.cmd p x.next (hdrTag ws) (x.pos + descBytes (wordAt ws 0)) x.prologue true)) s
  s.pccDone p m ws

/-- The PCC checks a SIGNAL, and sends it or waits for its fence (R187 to R190). -/
def execSignal (p : Fin 16) (s : State) : Result :=
  .next (s.reach p 0x20 fun s m ws =>
    match s.sgCheck m ws with
    | some code => s.issueFault p code (if code = syncOwner || code = syncGlobal then (sgOf ws).obj else 0)
    | none =>
      if s.fenceMet p (sgOf ws).fence then s.sendSignal p m ws
      else s.setPlain p { s.plain p with hold := .fence })

/-- The fence of a waiting SIGNAL is met, and the SIGNAL is sent (R190). -/
def execFenceMet (p : Fin 16) (s : State) : Result :=
  .next (match (s.plain p).fetched, s.owner p with
    | some ws, some m =>
      if s.running && (s.plain p).hold = .fence && s.fenceMet p (sgOf ws).fence then s.sendSignal p m ws else s
    | _, _ => s)

/-! ### WAIT (R193 to R197) -/

/-- What a serial comparison says of a value and a target (R194): the target is reached. -/
def reached (value target : W32) : Bool := (value - target).toNat < 0x40000000

/-- The target lies ahead by less than 2^30 (R194). -/
def ahead (value target : W32) : Bool := (value - target).toNat > 0xC0000000

/-- The target of a WAIT in step `n` (R194). -/
def waitTarget (ws : Words) (n : W32) : W32 := wordAt ws 5 + BitVec.ofNat 32 (bits (wordAt ws 6) 15 0) * n

/-- A WAIT starts (R194, R195): it completes, waits, or stops with SYNC_RANGE. -/
def State.startWait (s : State) (p m : Nat) (ws : Words) : State :=
  let o := bits (wordAt ws 4) 13 0
  let t := waitTarget ws (s.ctx m).step
  let s := (s.setPlain p { s.plain p with pcc := .issuing, waitObj := BitVec.ofNat 14 o, target := t }).setReg (offPln p 0x14) t
  if reached (s.obj o) t then s.pccDone p m ws
  else if ahead (s.obj o) t then s.setPlain p { s.plain p with pcc := .waiting }
  else s.issueFault p syncRange o

/-- The PCC checks and starts a WAIT (R185, R193, R194). -/
def execWait (p : Fin 16) (s : State) : Result :=
  .next (s.reach p 0x21 fun s m ws =>
    if hdrReserved ws || anyBits ws [(4, 0xFFFFC000), (6, 0xFFFF0000)] || anyWords ws 7 16 then s.issueFault p 0x0B01
    else if pccHdrBad ws 1 then s.issueFault p pccInvalid
    else if ! s.ownsObj m (bits (wordAt ws 4) 13 0) then s.issueFault p syncOwner (bits (wordAt ws 4) 13 0)
    else s.startWait p m ws)

/-- A waiting WAIT completes once its object is at or past the target by less than 2^30 (R195, R198). -/
def execWaitDone (p : Fin 16) (s : State) : Result :=
  .next (
    let x := s.plain p
    match x.fetched, s.owner p with
    | some ws, some m =>
      if s.running && x.pcc = .waiting && reached (s.obj x.waitObj.toNat) x.target then s.pccDone p m ws else s
    | _, _ => s)

/-! ### CMP_TABLE (R352 to R357) -/

/-- A CMP_TABLE descriptor read (R352). -/
structure Ct where
  source : Nat
  clear  : Bool
  c12    : Bool
  handle : Nat
  src    : Nat
  out    : Nat

/-- The fields of a CMP_TABLE (R352). -/
def ctOf (ws : Words) : Ct :=
  let w4 := wordAt ws 4
  ⟨bits w4 31 30, bit w4 29, bit w4 28, bits w4 7 0, dword ws 5, dword ws 7⟩

/-- The histogram of a handle (R364). -/
def State.histAddr (s : State) (m h : Nat) : Nat := s.histBase m + 1024 * h

/-- The first failing check of a CMP_TABLE (R354); one that uses a histogram where the context has no area stops with CMP_HANDLE (R371, R376). -/
def State.ctCheck (s : State) (m : Nat) (ws : Words) : Option Nat :=
  let d := ctOf ws
  if hdrReserved ws || anyBits ws [(4, 0x0FFFFF00)] || anyWords ws 9 16 then some 0x0B01
  else if pccHdrBad ws 1 || 2 ≤ d.source || (d.source = 0 && d.src ≠ 0) || d.src % 16 ≠ 0 || d.out % 32 ≠ 0 then some pccInvalid
  else if ! s.ownsHandle m d.handle || ((d.source = 0 || d.clear) && s.histBase m = 0) then some 0x0D01
  else none

/-- Whether a slot can be written for generation `g` of a handle (R355 step 2). -/
def State.slotReady (s : State) (h g : Nat) : Bool := s.slots.length < 384 && (s.slotOf h g).isNone

/-- A CMP_TABLE completes once what it wrote is at its home slices (R355, R423). -/
def State.tableDone (s : State) (p m : Nat) (ws : Words) : State :=
  if s.writesWait p (s.plain p).next then s.setPlain p { s.plain p with hold := .tableWrites } else s.pccDone p m ws

/-- Steps 3 to 5 of a CMP_TABLE (R355): the table is installed, and the histogram is cleared and the table recorded where asked. -/
def State.installTable (s : State) (p m : Nat) (ws : Words) (table : Bytes) : State :=
  let d := ctOf ws
  let g := (s.handleGen d.handle + 1) % 16
  let old := s.slots.map fun x => if x.handle = d.handle then { x with current := false } else x
  let s := ({ s with slots := old ++ [(⟨d.handle, g, d.c12, table, true⟩ : Slot)],
                     cmpGen := storePut zeroNat s.cmpGen d.handle g }).sweepSlots
  let id := (s.plain p).next
  let zero := if d.clear then wholeBytes (s.histAddr m d.handle) (List.replicate 1024 0) else []
  let out := if d.out = 0 then [] else
    wholeBytes d.out (table ++ [BitVec.ofNat 8 g, BitVec.ofNat 8 (b2n d.c12)] ++ List.replicate 14 0)
  match s.writeFault m zero with
  | some f => s.issueFault p f
  | none =>
    let s := s.write (.cmd p id) zero
    match s.writeFault m out with
    | some f => s.issueFault p f
    | none => (s.write (.cmd p id) out).tableDone p m ws

/-- The PCC checks a CMP_TABLE, forms its table, and installs it or waits for a slot (R353 to R357). -/
def execCmpTable (p : Fin 16) (s : State) : Result :=
  .next (s.reach p 0x24 fun s m ws =>
    match s.ctCheck m ws with
    | some code => s.issueFault p code
    | none =>
      let d := ctOf ws
      let run := if d.source = 0 then (s.histAddr m d.handle, 1024) else (d.src, 16)
      match s.readFault m [run] with
      | some f => s.issueFault p f
      | none =>
        let bs := s.read run.1 run.2
        let s := s.mscRead (.cmd p (s.plain p).next) [run]
        if d.source = 1 && ! tableOk d.c12 bs then s.issueFault p 0x0D03
        else
          let table := if d.source = 0 then buildTable d.c12 fun e => leNat ((bs.drop (4 * e)).take 4) else bs
          let s := s.sweepSlots
          if s.slotReady d.handle ((s.handleGen d.handle + 1) % 16) then s.installTable p m ws table
          else (s.setPlain p { s.plain p with hold := .tableSlot, table := table }).bump 0x68008)

/-- A slot is free and no slot holds the next generation: the CMP_TABLE that waits installs its table (R355, R356). One that has installed it and
waits for its writes completes once they are applied (R423). -/
def execCmpTableSlotWaitEnd (p : Fin 16) (s : State) : Result :=
  .next (match (s.plain p).fetched, s.owner p with
    | some ws, some m =>
      if s.running && (s.plain p).hold = .tableWrites then s.tableDone p m ws
      else
      let d := ctOf ws
      let s' := s.sweepSlots
      if s.running && (s.plain p).hold = .tableSlot && s'.slotReady d.handle ((s.handleGen d.handle + 1) % 16) then
        s'.installTable p m ws (s.plain p).table
      else s
    | _, _ => s)

/-! ### SNAPSHOT (R541) -/

/-- A snapshot request recorded for the next step boundary; requests merge (R539, R542), and the boundary that meets them may defer them anew (R543). -/
def State.requestSnap (s : State) (m tiers : Nat) : State :=
  let c := s.ctx m
  s.setCtx m { c with snap := c.snap ||| BitVec.ofNat 3 tiers, deferred := false }

/-- The PCC checks a SNAPSHOT and records its request (R541). -/
def execSnapshot (p : Fin 16) (s : State) : Result :=
  .next (s.reach p 0x27 fun s m ws =>
    if hdrReserved ws || anyBits ws [(4, 0xFFFFFFF8)] || anyWords ws 5 16 then s.issueFault p 0x0B01
    else if pccHdrBad ws 1 || bits (wordAt ws 4) 2 0 = 0 then s.issueFault p pccInvalid
    else (s.requestSnap m (bits (wordAt ws 4) 2 0)).pccDone p m ws)

end Sys2Proof.Machine
end

