-- ==== Sys2Proof/Machine/Ring.lean ====
section
/-! DEFINITION. How a ring pair takes an entry (R499 to R505). -/

namespace Sys2Proof.Machine

/-- HIF_OPCODE, HIF_PAYLOAD and DESC_RESERVED (R504). -/
def hifOpcode : Nat := 0x0203
def hifPayload : Nat := 0x0208
def descReserved : Nat := 0x0B01

/-- The opcode of an entry (R498). -/
def entryOp (e : Words) : Nat := bits (wordAt e 0) 7 0

/-- Whether an entry is the one at SQ_HEAD (R499). -/
def State.entryValid (s : State) (r : Nat) (e : Words) : Bool :=
  let k := (s.pair r).sqHead.toNat
  bits (wordAt e 0) 31 16 = k % 65536 && bits (wordAt e 0) 15 15 = (k / 2 ^ s.sqLog r + 1) % 2

/-- An entry starts: its command runs until it completes. -/
def State.takeEntry (s : State) (r : Nat) (e : Words) : State :=
  s.setPair r { s.pair r with cur := some e, old := false, stale := false }

/-- The pair executes a valid entry of opcode `op` (R501, R504, R505): `ok` says whether the pair accepts it, `masks` and `from` name the
reserved bits of its payload. -/
def State.ring (s : State) (r : Nat) (e : Words) (op : Nat) (ok : Bool) (masks : List (Nat × Nat)) (first : Nat) (f : State → State) : State :=
  if ! (s.readsEntry r && s.entryValid r e && entryOp e = op) then s
  else
    let s := s.takeEntry r e
    if ! ok then s.complete r hifOpcode
    else if anyBits e ((0, 0x7F00) :: masks) || anyWords e first 16 then s.complete r descReserved
    else f s

end Sys2Proof.Machine
end

