-- ==== Sys2Proof/Machine/Ckp.lean ====
section
/-! DEFINITION. The checkpoint engine: the stop, the drain, the tiers, commit and restore (R539 to R575). -/

namespace Sys2Proof.Machine

/-- The statuses of R587 that this file raises. -/
def ckpArea : Nat := 0x1101
def ckpNoCheckpoint : Nat := 0x1103
def ckpDigest : Nat := 0x1104
def ckpIdentity : Nat := 0x1105
def ckpRngMismatch : Nat := 0x1106
def ckpVerifyMismatch : Nat := 0x1107
def ckpState : Nat := 0x1109

/-- The engine's record replaced. -/
def State.setCkp (s : State) (k : Ckp) : State := { s with ckp := k }

/-- A completion of the engine, with its CHECKPOINT entry (R586, R606). -/
def State.ckpEvent (s : State) (kind m status : Nat) (step detail : W32) : State :=
  (s.logAdd logCheckpoint (some m) status 0 0 kind step.toNat 0).event kind m status 0 0 [step, detail]

/-! ### Layouts (R550, R556 to R559) -/

/-- SLOT_BYTES, and the offset of a slot in a tier (R556). -/
def State.slotBytes (s : State) : Nat := (s.reg 0x88020).toNat * 2097152
def State.slotBase (s : State) (k : Nat) : Nat := 2097152 + k * s.slotBytes

/-- A chunk of the data stream, and how many there are (R558). -/
def chunkBytes : Nat := 268435456
def chunksOf (data : Nat) : Nat := ceilDiv data chunkBytes

/-- M, the bytes of a manifest (R558). -/
def manBytes (ranges data : Nat) : Nat := roundUp 2097152 (256 + 16 * ranges + 64 * chunksOf data)

/-- Fields of a manifest header (R558). -/
def manRanges (h : Words) : Nat := (wordAt h 9).toNat
def manData (h : Words) : Nat := dword h 10
def manM (h : Words) : Nat := manBytes (manRanges h) (manData h)
def manPlains (h : Words) : Nat := bits (wordAt h 8) 4 0

/-- The data base of a slot: M bytes after its start (R558). -/
def State.dataBase (s : State) (slot : Nat) (h : Words) : Nat := s.slotBase slot + manM h

/-! ### Accesses of the tiers (R556, R557) -/

/-- The pieces of an access of partner memory, each a CKPT packet (R441, R557); the length of a read request is its DLEN. -/
def State.partnerAccess (s : State) (write : Bool) (off len : Nat) (data : Bytes) : State :=
  (requestsOf off len).foldl (fun s x =>
    let n := min ((x / 2048 + 1) * 2048) (off + len) - x
    let c := s.ctx s.ckp.ctx
    let (req, s) := s.takeReq
    let k := s.mkPacket 9 3 (bits (s.reg 0x88028) 11 0) c.runTag.toNat c.epoch.toNat 0 (req * 2 ^ 16 + n) (s.pairVal 0x8802C + x)
      (if write then 0 else 1) (if write then (data.drop (x - off)).take n else [])
    (s.sendHeld k .ckpt).setCkp { s.ckp with reqs := s.ckp.reqs ++ [⟨0, write, x, n, BitVec.ofNat 16 req, 0, []⟩] }) s

/-- The bytes of the module's flash (R2). -/
def flashSize : Nat := 15360000000000

/-- Whether the engine may reach bytes of the flash: those of the management core lie below (R557, log entry 146). -/
def flashOk (a n : Nat) : Bool := mcFlashEnd ≤ a && a + n ≤ flashSize

/-- The bytes of the flash from `a` on. -/
def State.flashRead (s : State) (a n : Nat) : Bytes :=
  (List.range n).map fun i => (storeGet (fun _ => none) s.flash (a + i)).getD (Config.flashByte (a + i))

/-- Bytes in the flash. -/
def State.flashPut (s : State) (a : Nat) (bs : Bytes) : State :=
  { s with flash := storePutRun (fun _ => none) s.flash a (bs.map some) }

/-- A write of the flash that did not complete: a root record is the old or the new one (R565), other bytes hold free values (log entry 146). -/
def State.flashTorn (s : State) (x : TierReq) : State :=
  if x.len = 128 then
    let s' := { s with free := s.free + 1 }
    if bit (Config.freeWord s.free) 0 then s'.flashPut x.addr x.data else s'
  else ({ s with free := s.free + x.len }).flashPut x.addr ((List.range x.len).map fun i => (Config.freeWord (s.free + i)).setWidth 8)

/-- The writes that the flash controller has not completed: completed within the hold-up time or before the rails go (R681, R682), or cut. -/
def State.flashWrites (s : State) : List TierReq := s.ckp.reqs.filter fun x => (x.tier = 1 || x.tier = 3) && x.write
def State.flashDone (s : State) : State :=
  let t := s.flashWrites.foldl (fun s x => s.flashPut x.addr x.data) s
  { t with ckp := { t.ckp with reqs := t.ckp.reqs.filter fun x => ! ((x.tier = 1 || x.tier = 3) && x.write) } }
def State.flashCut (s : State) : State := s.flashWrites.foldl (fun s x => s.flashTorn x) s

/-- An access of a tier started; none where the tier cannot take it: bytes of the flash that are not its own (log entry 146), a queue pair that is not READY. `q` chooses
the queue pair of the store. -/
def State.tierAccess (s : State) (t : Nat) (write : Bool) (off len : Nat) (data : Bytes) (q : Nat) : Option State :=
  if t = 0 then (if s.devValid then some (s.partnerAccess write off len data) else none)
  else if t = 1 then
    let a := (s.reg 0x88040).toNat * 2097152 + off
    if ! flashOk a len then none
    else
      let s := { s with flashTx := s.flashTx ++ [if write then FlashOut.write a data else FlashOut.read a len] }
      some (s.setCkp { s.ckp with reqs := s.ckp.reqs ++ [⟨1, write, off, len, 0, a, data⟩] })
  else
    let w := s.reg 0x88044
    let n := if q = 0 then bits w 8 0 else bits w 24 16
    if s.qpState n ≠ 1 || ! bit (s.qpWord n 0) 24 then none
    else
      let s := s.startXfer n ⟨none, write, s.reg 0x88048, s.pairVal 0x8804C + off, 0, len, 0, false, data, 0⟩
      some (s.setCkp { s.ckp with reqs := s.ckp.reqs ++ [⟨2, write, off, len, 0, 0, []⟩] })

/-- Whether the engine waits for what it reads from a tier. -/
def State.tierReading (s : State) (t : Nat) : Bool := s.ckp.reqs.any fun x => x.tier = t && ! x.write

/-- Bytes that were read from a tier, or the access that must first be made. -/
def State.peek (s : State) (t off len : Nat) : Except (Nat × Nat) Bytes :=
  match (List.range len).mapM fun i => storeGet (fun _ => none) s.ckp.cache (t * 2 ^ 56 + off + i) with
  | some bs => .ok bs
  | none => .error (off, len)

/-- Bytes read from a tier kept. -/
def State.keep (s : State) (t off : Nat) (bs : Bytes) : State :=
  s.setCkp { s.ckp with cache := storePutRun (fun _ => none) s.ckp.cache (t * 2 ^ 56 + off) (bs.map some) }

/-- What was read from a run of a tier forgotten. -/
def State.forget (s : State) (t off len : Nat) : State :=
  s.setCkp { s.ckp with cache := storeClear s.ckp.cache (t * 2 ^ 56 + off) (t * 2 ^ 56 + off + len) }

/-! ### Roots (R559, R561, R562) -/

/-- The check word of a root (R559). -/
def rootCheck (bs : Bytes) : W32 := BitVec.ofNat 32 (crc32 (bs.take 28 ++ bs.drop 32))

/-- Root `k` of a tier, where it is valid (R561), or the access that must first be made. -/
def State.rootOf (s : State) (t k : Nat) : Except (Nat × Nat) (Option Words) :=
  match s.peek t (4096 * k) 128 with
  | .error e => .error e
  | .ok bs =>
    let ws := wordsOf 32 bs
    if wordAt ws 0 ≠ 0x544F4F52#32 || bits (wordAt ws 2) 0 0 ≠ k || wordAt ws 7 ≠ rootCheck bs then .ok none
    else match s.peek t (s.slotBase k) 256 with
    | .error e => .error e
    | .ok hb =>
      let m := manM (wordsOf 64 hb)
      if s.slotBytes < m then .ok none
      else match s.peek t (s.slotBase k) m with
      | .error e => .error e
      | .ok mb => .ok (if sha512 mb = bs.drop 64 then some ws else none)

/-- The valid roots of a tier, each with its slot. -/
def State.rootsOf (s : State) (t : Nat) : Except (Nat × Nat) (List (Nat × Words)) :=
  match s.rootOf t 0 with
  | .error e => .error e
  | .ok a => match s.rootOf t 1 with
    | .error e => .error e
    | .ok b => .ok ((a.toList.map fun w => (0, w)) ++ b.toList.map fun w => (1, w))

/-- The current root: the later SEQ in serial order, or the only valid one (R561). -/
def currentRoot : List (Nat × Words) → Option (Nat × Words)
  | [a, b] => if (wordAt b.2 1 - wordAt a.2 1).toNat < 2 ^ 31 then some b else some a
  | a :: _ => some a
  | [] => none

/-- The slot a drain writes, and the SEQ of its root (R562, R563). -/
def drainSlot (l : List (Nat × Words)) : Nat × W32 :=
  match currentRoot l with
  | some (k, w) => (1 - k, wordAt w 1 + 1)
  | none => (0, 1)

/-! ### The stop (R545 to R550) -/

/-- Whether a byte is live for context `m` (R387, R421). -/
def State.liveAt (s : State) (m a : Nat) : Bool :=
  s.mapped a 1 && (match s.marking a with
    | some n => let c := s.reg (offRgn n 0xC); bit c 2 && bits c 19 16 = m
    | none => false)

/-- Segments of one kind joined into maximal runs (base, length). -/
def joinRuns : List (Nat × Nat) → List (Nat × Nat)
  | [] => []
  | (a, n) :: r => match joinRuns r with
    | (b, k) :: t => if a + n = b then (a, n + k) :: t else (a, n) :: (b, k) :: t
    | [] => [(a, n)]

/-- The live ranges of a context, ascending (R549, R558). -/
def State.liveRanges (s : State) (m : Nat) : List (Nat × Nat) :=
  let ends := (List.range 64).flatMap fun n => [s.rgnBase n, s.rgnBase n + s.rgnSize n]
  let cuts := ((ends ++ [0, 480000000000, 0x8000000000, 0x8000000000 + 480000000000, ddrBase, ddrBase + s.ddrBytes]).foldr insertAsc []).eraseDups
  joinRuns ((cuts.zip (cuts.drop 1)).filterMap fun x => if s.liveAt m x.1 then some (x.1, x.2 - x.1) else none)

/-- Whether a region with SNAP = 1 covers a byte of a run (R546). -/
def State.snapCovers (s : State) (a n : Nat) : Bool :=
  (List.range 64).any fun r =>
    let c := s.reg (offRgn r 0xC)
    bit c 31 && bit c 2 && s.rgnSize r ≠ 0 && n ≠ 0 && s.rgnBase r < a + n && a < s.rgnBase r + s.rgnSize r

/-- Whether the configuration forbids a snapshot of context `m` to `tiers` (R546). -/
def State.snapBad (s : State) (m tiers : Nat) (ranges : List (Nat × Nat)) : Bool :=
  let a := s.areaBase
  let n := areaBytes (s.plainsOf m).length
  let data := n + (ranges.map (·.2)).foldl (· + ·) 0
  a = 0 || a % 2097152 ≠ 0 || ddrBase ≤ a || ! s.mapped a n || s.snapCovers a n || s.snapCovers (s.pairVal 0x20028) 201326592 ||
  s.snapCovers (s.pairVal 0x20030) (65536 * (s.reg 0x20038).toNat) || s.reg 0x20038 = 0 ||
  tiers &&& ((s.reg 0x88004).toNat % 8) ≠ tiers || s.slotBytes < manBytes ranges.length data + data

/-- Bytes written to the area over what it held (R550). -/
def State.putArea (s : State) (a n : Nat) (es : List (Nat × Byte)) : State :=
  { s with msc := s.mscServe .other true (lineRequests [(a, n)]),
           mem := es.foldl (fun m e => storePut memDefault m e.1 e.2) (storeClear s.mem a (a + n)),
           poison := storeClear s.poison (ceilDiv a 64) ((a + n) / 64) }

/-- A run of bytes as entries of a store. -/
def entriesOf (a : Nat) (bs : Bytes) : List (Nat × Byte) := bs.mapIdx fun i b => (a + i, b)

/-- The core record of the area (R550). -/
def State.coreRecord (s : State) (c : Nat) : Bytes :=
  leBytes 4 (storeGet zeroNat s.accOpen c) ++ leBytes 32 (storeGet zeroNat s.basinOpen c) ++ List.replicate 28 0 ++
  ((List.range 32).flatMap fun t => leBytes 8 (s.hold false c t)) ++ ((List.range 256).flatMap fun t => leBytes 8 (s.hold true c t)) ++
  List.replicate 1728 0

/-- What the area holds of core `c`, from `a` on (R550). -/
def State.coreImage (s : State) (c a : Nat) : List (Nat × Byte) :=
  let run := fun (st : Store W32) (lo n b : Nat) => (st.filter fun e => lo ≤ e.1 && e.1 < lo + n).flatMap fun e =>
    entriesOf (b + 4 * (e.1 - lo)) (leBytes 4 e.2.toNat)
  ((s.field.filter fun e => c * 2 ^ 23 ≤ e.1 && e.1 < c * 2 ^ 23 + 6291456).map fun e => (a + (e.1 - c * 2 ^ 23), e.2)) ++
  run s.acc (c * 131072) 131072 (a + 6291456) ++ run s.basin (c * 1048576) 1048576 (a + 6815744) ++
  entriesOf (a + 11010048) (s.coreRecord c)

/-- The record of a handle in the area (R550); one of another context is zero. -/
def State.handleRecord (s : State) (m h : Nat) : Bytes :=
  if ! s.ownsHandle m h then List.replicate 32 0
  else match s.currentSlot h with
    | some x => x.table ++ [BitVec.ofNat 8 (s.handleGen h), BitVec.ofNat 8 (128 + b2n x.c12)] ++ List.replicate 14 0
    | none => List.replicate 16 0 ++ [BitVec.ofNat 8 (s.handleGen h), 0] ++ List.replicate 14 0

/-- Words 0 to 63 of the manifest header at a snapshot (R558); the verification record is not known yet, and holds free values from `draw` on. -/
def State.manHead (s : State) (m : Nat) (ranges : List (Nat × Nat)) (data draw : Nat) : Words :=
  let c := s.ctx m
  let job := s.pairVal 0x88008
  let w := fun n => BitVec.ofNat 32 n
  [0x4D4B4354#32, w (2 ^ 16 + m % 16 * 2 ^ 12 + s.devId), w job, w (job / 2 ^ 32), c.step + 1, w (c.fwPlain.toNat * 2 ^ 16 + c.epoch.toNat),
   c.seed.setWidth 32, (c.seed >>> 32).setWidth 32, w (s.plainsOf m).length, w ranges.length, w data, w (data / 2 ^ 32), 0, 0, 0, 0] ++
  wordsOf 16 c.digest ++ freeWords draw 16 ++ List.replicate 16 0

/-- The on-chip state and the context record copied into the area (R545, R550). -/
def State.fillArea (s : State) (m : Nat) (h : Words) : State :=
  let a := s.areaBase
  let s := s.putArea a 256 (entriesOf a (bytesOf h))
  let s := s.putArea (a + 4096) 8192 (entriesOf (a + 4096) ((List.range 256).flatMap fun i => s.handleRecord m i))
  (((s.plainsOf m).flatMap coresOf).mapIdx fun i c => (c, a + 65536 + 11014144 * i)).foldl
    (fun s x => s.putArea x.2 11014144 (s.coreImage x.1 x.2)) s

/-- The pages of the live ranges, ascending (R421, R552). -/
def pagesIn (ranges : List (Nat × Nat)) : List Nat :=
  (ranges.flatMap fun r => (List.range (pageOf (r.1 + r.2 - 1) + 1 - pageOf r.1)).map fun i => pageOf r.1 + i).eraseDups

/-! ### Draining (R551 to R555, R560, R563) -/

/-- The slots of the tiers found, one by one; a tier that cannot be read abandons the drain. -/
def State.findSlots (s : State) : List Nat → State
  | [] => s
  | t :: r =>
    if (s.ckp.slots.any fun x => x.1 = t) || s.tierReading t then s.findSlots r
    else match s.rootsOf t with
    | .ok l => (s.setCkp { s.ckp with slots := s.ckp.slots ++ [(t, drainSlot l)] }).findSlots r
    | .error (off, n) => match s.tierAccess t false off n [] 0 with
      | some s => s.findSlots r
      | none => s.ckpAbandon ckpTier true

/-- The part of a page that lies in a live range: its first byte, its length, its offset in the data stream after the area. -/
def pageRun (page : Nat) : List (Nat × Nat) → Nat → Option (Nat × Nat × Nat)
  | [], _ => none
  | (b, n) :: r, o =>
    let lo := max (pageAddr page) b
    let hi := min (pageAddr page + 65536) (b + n)
    if lo < hi then some (lo, hi - lo, o + (lo - b)) else pageRun page r (o + n)

/-- The same access of several tiers; one that cannot take it abandons the drain. -/
def State.writeTiers (s : State) (f : Nat × Nat × W32 → Nat × Bytes) (q : Nat) : List (Nat × Nat × W32) → State
  | [] => s
  | x :: r =>
    let (off, bs) := f x
    match s.tierAccess x.1 true off bs.length bs q with
    | some s => s.writeTiers f q r
    | none => s.ckpAbandon ckpTier true

/-- A piece of the data stream read from `a` and written to every tier (R551). -/
def State.drainPiece (s : State) (a n off : Nat) : State :=
  match s.refused none a n false with
  | some f => s.ckpAbandon f true
  | none =>
    let (bs, s) := (s.mscRead .other [(a, n)]).drainBytes a n
    let s := s.setCkp { s.ckp with data := storePutRun zeroByte s.ckp.data off bs }
    s.writeTiers (fun x => (s.dataBase x.2.1 s.ckp.hdr + off, bs)) (off / chunkBytes % 2) s.ckp.slots

/-- Whether every byte of the data stream has been read. -/
def State.drained (s : State) : Bool :=
  s.ckp.area = areaBytes (manPlains s.ckp.hdr) / 65536 && s.ckp.left.isEmpty && s.cow.pool.isEmpty

/-- Tracking ends once every byte is read (R554). -/
def State.endRead (s : State) : State :=
  if s.ckp.phase = .drain && s.drained && s.cowActive then s.cowEnd else s

/-- The engine reads the next piece: the area first, then pool copies, oldest first, then live pages in ascending order (R552, R553). -/
def State.drainRead (s : State) : State :=
  let k := s.ckp
  if k.phase ≠ .drain || k.slots.length ≠ k.tiers.length || ! s.cowActive then s
  else
    let base := areaBytes (manPlains k.hdr)
    if k.area < base / 65536 then
      let s := s.setCkp { k with area := k.area + 1 }
      (s.drainPiece (s.areaBase + 65536 * k.area) 65536 (65536 * k.area)).endRead
    else match s.cow.pool with
    | (slot, page) :: r =>
      let s := (s.setCkp { k with left := k.left.filter (· ≠ page) })
      let s := { s with cow := { s.cow with pool := r } }
      (match pageRun page k.ranges base with
        | some (lo, n, off) => s.drainPiece (s.poolAddr slot + (lo - pageAddr page)) n off
        | none => s).endRead
    | [] => match k.left with
      | page :: r =>
        let s := s.setCkp { k with left := r }
        let s := match pageRun page k.ranges base with
          | some (lo, n, off) => s.drainPiece lo n off
          | none => s
        (if s.cowActive then (s.markPage page).releasePage page else s).endRead
      | [] => s.endRead

/-- The manifest (R558): its header with the verification record, the ranges and the digest of each chunk. -/
def Ckp.manifest (k : Ckp) : Bytes :=
  let d := manData k.hdr
  let h := bytesOf (k.hdr.take 32) ++ (k.verify.getD []) ++ List.replicate 64 0 ++ (k.ranges.flatMap fun r => leBytes 8 r.1 ++ leBytes 8 r.2) ++
    (List.range (chunksOf d)).flatMap fun i => sha512 (storeGetRun zeroByte k.data (i * chunkBytes) (min chunkBytes (d - i * chunkBytes)))
  h ++ List.replicate (manM k.hdr - h.length) 0

/-- A root record (R559). -/
def Ckp.rootBytes (k : Ckp) (slot : Nat) (seq : W32) : Bytes :=
  let a := bytesOf [0x544F4F52#32, seq, BitVec.ofNat 32 slot, wordAt k.hdr 4, wordAt k.hdr 2, wordAt k.hdr 3, wordAt k.hdr 1 &&& 0xFFF#32]
  let b := List.replicate 32 (0 : Byte) ++ sha512 k.manifest
  a ++ leBytes 4 (rootCheck (a ++ [0, 0, 0, 0] ++ b)).toNat ++ b

/-- The roots are written (R563). -/
def State.startRoots (s : State) : State :=
  let k := s.ckp
  (s.setCkp { k with phase := .roots }).writeTiers (fun x => (4096 * x.2.1, k.rootBytes x.2.1 x.2.2)) 0 k.slots

/-- The manifest is durable on every tier (R563). -/
def State.prepared (s : State) : State :=
  let k := s.ckp
  let s := (s.setCkp { k with phase := .prepared }).ckpEvent 0x12 k.ctx 0 (wordAt k.hdr 4) 0
  if bit (s.reg 0x88004) 3 then s.startRoots else s

/-- The roots are written on every tier, and the drain ends (R563). -/
def State.committed (s : State) : State :=
  let k := s.ckp
  let s := s.ckpRest.ckpEvent 0x13 k.ctx 0 (wordAt k.hdr 4) 0
  match k.cmd with
  | some (r, _) => s.complete r 0
  | none => s

/-- The engine prepares the commit once the data and the verification record are durable (R560, R563). -/
def execCkpPrepare (s : State) : Result :=
  .next (
    let k := s.ckp
    if k.phase = .drain && s.drained && ! s.cowActive && k.reqs.isEmpty && k.verify.isSome && k.slots.length = k.tiers.length then
      (s.setCkp { k with phase := .manifest }).writeTiers (fun x => (s.slotBase x.2.1, k.manifest)) 0 k.slots
    else s)

/-! ### Restore (R568 to R570) -/

/-- Fields of a CKP_RESTORE entry (R568). -/
def rsTier (e : Words) : Nat := bits (wordAt e 2) 31 30
def rsVerify (e : Words) : Bool := bit (wordAt e 2) 29
def rsClass (e : Words) : Nat := bits (wordAt e 2) 28 27
def rsStep (e : Words) : W32 := wordAt e 3
def rsImage (e : Words) : Nat := dword e 6

/-- A restore ends with a status; one that was loading leaves the on-chip state as a per-context reset does (R569). -/
def State.restoreEnd (s : State) (status : Nat) : State :=
  let k := s.ckp
  let s := if k.phase = .load && status ≠ 0 then s.ckpRest.clearChip k.ctx else s.ckpRest
  match k.cmd with
  | some (r, _) => s.complete r status
  | none => s

/-- The STEP of a restore in progress: what it asks for, or what it loads. -/
def Ckp.restoring (k : Ckp) : Option W32 :=
  match k.phase, k.cmd with
  | .find, some (_, e) => some (rsStep e)
  | .load, some _ => some (wordAt k.hdr 4)
  | _, _ => none

/-- A restore that a reset cuts is recorded (R567). -/
def State.restoreCut (s : State) : State :=
  match s.ckp.restoring with
  | some step => (s.logAdd logCheckpoint (some s.ckp.ctx) ckpAbandoned 0 0 0x14 step.toNat 0).setBits 0x88000 0x10000000#32 0x10000000#32
  | none => s

/-- A restore cut by a per-context reset (R567): it leaves what a failure leaves. -/
def State.restoreAbandon (s : State) : State := if s.ckp.restoring.isSome then s.restoreCut.restoreEnd ckpAbandoned else s

/-- The tiers a restore tries (R574, R575). -/
def State.restoreTiers (s : State) (e : Words) : List Nat :=
  if rsTier e ≠ 3 then [rsTier e]
  else if bit (s.reg 0x88024) 31 then [0, 1, 2]
  else
    let t := bits (s.reg 0x88024) (2 * rsClass e + 1) (2 * rsClass e)
    if t = 3 then [] else [t]

/-- The RNG_STREAMS entries of an image, as far as the context can read them (R165, R570). -/
def State.imageRng (s : State) (m a : Nat) : Option (List Words) :=
  match s.readFault m [(a, 128)] with
  | some _ => none
  | none =>
    let h := wordsOf 32 (s.read a 128)
    let n := bits (wordAt h 5) 15 0
    let tab := dword h 6
    match s.readFault m [(a + tab, 16 * n)] with
    | some _ => none
    | none =>
      let l := (sectsOf n (s.read (a + tab) (16 * n))).filter fun x => x.kind = 4
      match s.readFault m (l.map fun x => (a + x.off, x.bytes)) with
      | some _ => none
      | none => some (l.flatMap fun x => entries16 (s.read (a + x.off) x.bytes))

/-- The check of the random streams and the data position (R570). -/
def State.rngOk (s : State) (m : Nat) (e : Words) (step : W32) : Bool :=
  let n := (wordAt e 10).toNat
  wordAt e 4 = step && (match s.imageRng m (rsImage e), s.readFault m [(dword e 8, 16 * n)] with
    | some l, none =>
      let pos := entries16 (s.read (dword e 8) (16 * n))
      pos.map (fun w => (wordAt w 0, bits (wordAt w 1) 3 0, dword w 2)) =
        l.map fun w => (wordAt w 0, bits (wordAt w 1) 3 0, step.toNat * (wordAt w 2).toNat % 2 ^ 64)
    | _, _ => false)

/-- Whether regions of a context together grant an access for every byte from `a` up to `hi` (R386, R527); each region is passed at most once. -/
def State.grantsAll (s : State) (m : Nat) (write : Bool) : Nat → Nat → Nat → Bool
  | 0, a, hi => hi ≤ a
  | n + 1, a, hi =>
    if hi ≤ a then true
    else match (List.range 64).find? fun r =>
        let c := s.reg (offRgn r 0xC)
        s.rgnCovers r a 1 && bits c 19 16 = m && bit c (if write then 1 else 0) with
      | some r => s.grantsAll m write n (s.rgnBase r + s.rgnSize r) hi
      | none => false

/-- The ranges of a manifest (R558). -/
def manRangeList (h : Words) (mb : Bytes) : List (Nat × Nat) :=
  (List.range (manRanges h)).map fun i => (leNat ((mb.drop (256 + 16 * i)).take 8), leNat ((mb.drop (264 + 16 * i)).take 8))

/-- The identity check of a restore (R569 step 4). -/
def State.identityOk (s : State) (m : Nat) (e h : Words) (ranges : List (Nat × Nat)) : Bool :=
  let a := rsImage e + 64
  dword h 2 = s.pairVal 0x88008 && bits (wordAt h 1) 11 0 = s.devId && manPlains h = (s.plainsOf m).length &&
  bits (wordAt h 5) 15 0 = (s.ctx m).epoch.toNat && (s.readFault m [(a, 64)]).isNone && wordsOf 16 (s.read a 64) = (h.drop 16).take 16 &&
  ranges.all fun r => s.mapped r.1 r.2 && s.grantsAll m true 65 r.1 (r.1 + r.2)

/-- A chunk's bytes put where they belong: the area is kept until the end, live ranges are written in place (R569 step 6). -/
def State.placeRanges (s : State) (off : Nat) (bs : Bytes) : List (Nat × Nat) → Nat → State
  | [], _ => s
  | (b, n) :: r, o =>
    let lo := max o off
    let hi := min (o + n) (off + bs.length)
    let s := if lo < hi then s.write .other (wholeBytes (b + (lo - o)) ((bs.drop (lo - off)).take (hi - lo))) else s
    s.placeRanges off bs r (o + n)

/-- The 4-byte elements of a tile memory rebuilt from bytes of the area. -/
def putElemByte (st : Store W32) (base o : Nat) (b : Byte) : Store W32 :=
  let e := base + o / 4
  storePut zeroWord st e (storeGet zeroWord st e ||| BitVec.ofNat 32 (b.toNat * 2 ^ (8 * (o % 4))))

/-- The words of a run of a tile memory as they are loaded: −0 as +0 (R45). -/
def loadWords (st : Store W32) (lo n : Nat) : Store W32 := st.filter fun e => ! (lo ≤ e.1 && e.1 < lo + n && e.2 = 0x80000000#32)

/-- A core set from the area at offset `a` of the data stream (R550, R569). -/
def State.loadCore (s : State) (c a : Nat) : State :=
  let d := s.ckp.data
  let s := s.clearCore c
  let s := (d.filter fun e => a ≤ e.1 && e.1 < a + 11010048).foldl (fun s e =>
    let o := e.1 - a
    if o < 6291456 then { s with field := storePut zeroByte s.field (c * 2 ^ 23 + o) e.2 }
    else if o < 6815744 then { s with acc := putElemByte s.acc (c * 131072) (o - 6291456) e.2 }
    else { s with basin := putElemByte s.basin (c * 1048576) (o - 6815744) e.2 }) s
  let s := { s with acc := loadWords s.acc (c * 131072) 131072, basin := loadWords s.basin (c * 1048576) 1048576 }
  let r := storeGetRun zeroByte d (a + 11010048) 2368
  let s := { s with accOpen := storePut zeroNat s.accOpen c (leNat (r.take 4)), basinOpen := storePut zeroNat s.basinOpen c (leNat ((r.drop 4).take 32)) }
  (List.range 288).foldl (fun s t =>
    let v := leNat ((r.drop (64 + 8 * t)).take 8)
    if t < 32 then s.setHold false c t v else s.setHold true c (t - 32) v) s

/-- The handles of a context set from the area (R550, R569). -/
def State.loadHandles (s : State) (m : Nat) : State :=
  ((List.range 256).filter fun h => s.ownsHandle m h).foldl (fun s h =>
    let r := storeGetRun zeroByte s.ckp.data (4096 + 32 * h) 32
    let g := (r.getD 16 0).toNat % 16
    let f := (r.getD 17 0).toNat
    let s := { s with cmpGen := storePut zeroNat s.cmpGen h g }
    if 128 ≤ f then { s with slots := s.slots ++ [(⟨h, g, f % 2 = 1, r.take 16, true⟩ : Slot)] } else s) (s.clearHandles m)

/-- The on-chip state set and the context armed (R569 steps 6 and 7). -/
def State.restoreArm (s : State) : State :=
  let k := s.ckp
  let m := k.ctx
  match k.cmd with
  | none => s.ckpRest
  | some (r, e) =>
    let s := (((s.plainsOf m).flatMap coresOf).mapIdx fun i c => (c, 65536 + 11014144 * i)).foldl (fun s x => s.loadCore x.1 x.2) (s.loadHandles m)
    let s := s.ckpRest
    match s.readImage m (rsImage e) with
    | .error f => s.complete r f
    | .ok i =>
      let v := rsVerify e
      (s.armWith m (BitVec.ofNat 16 (bits (wordAt e 5) 31 16)) (rsImage e) (wordAt k.hdr 4) (if v then 1 else 0)
        (BitVec.ofNat 64 (dword k.hdr 6)) i (if v then some (bytesOf ((k.hdr.drop 32).take 16)) else none)).complete r 0

/-- The chunk that is due is read, or the restore goes on once none is (R569 step 6). -/
def State.loadNext (s : State) : State :=
  let k := s.ckp
  match k.root with
  | none => s
  | some (t, slot) =>
    let d := manData k.hdr
    if chunksOf d ≤ k.chunk then s.restoreArm
    else match s.tierAccess t false (s.dataBase slot k.hdr + k.chunk * chunkBytes) (min chunkBytes (d - k.chunk * chunkBytes)) [] (k.chunk % 2) with
      | some s => s
      | none => s.restoreEnd ckpTier

/-- A chunk that has arrived is checked and put in its place (R569 step 6). -/
def State.loadStep (s : State) : State :=
  let k := s.ckp
  match k.root with
  | none => s
  | some (t, slot) =>
    let d := manData k.hdr
    let o := k.chunk * chunkBytes
    let n := min chunkBytes (d - o)
    let at_ := s.dataBase slot k.hdr + o
    match s.peek t at_ n, s.peek t (s.slotBase slot + 256 + 16 * manRanges k.hdr + 64 * k.chunk) 64 with
    | .ok bs, .ok dg =>
      if sha512 bs ≠ dg then s.restoreEnd ckpDigest
      else
        let base := areaBytes (manPlains k.hdr)
        match (k.ranges.findSome? fun r => s.refused none r.1 r.2 true) with
        | some f => s.restoreEnd f
        | none =>
          let s := s.forget t at_ n
          let s := s.setCkp { s.ckp with data := storePutRun zeroByte s.ckp.data o (bs.take (base - o)), chunk := k.chunk + 1 }
          (s.placeRanges o bs k.ranges base).loadNext
    | _, _ => s

/-- Steps 3 to 5 of a restore, once the root is chosen (R569). -/
def State.restoreCheck (s : State) : State :=
  let k := s.ckp
  match k.root, k.cmd with
  | some (t, slot), some (_, e) =>
    let need := fun (x : Nat × Nat) => if s.tierReading t then s else match s.tierAccess t false x.1 x.2 [] 0 with
      | some s => s
      | none => s.restoreEnd ckpTier
    match s.peek t (s.slotBase slot) 256 with
    | .error x => need x
    | .ok hb =>
      let h := wordsOf 64 hb
      if s.slotBytes < manM h then s.restoreEnd ckpDigest
      else match s.peek t (s.slotBase slot) (manM h), s.peek t (4096 * slot) 128 with
      | .ok mb, .ok rb =>
        let ranges := manRangeList h mb
        if sha512 mb ≠ rb.drop 64 then s.restoreEnd ckpDigest
        else if ! s.identityOk k.ctx e h ranges then s.restoreEnd ckpIdentity
        else if ! s.rngOk k.ctx e (wordAt h 4) then s.restoreEnd ckpRngMismatch
        else (s.setCkp { k with phase := .load, hdr := h, ranges := ranges, chunk := 0 }).loadNext
      | .error x, _ => need x
      | _, .error x => need x
  | _, _ => s

/-- Step 2 of a restore: the tiers in turn, the first that holds the checkpoint asked for (R569, R575). -/
def State.restoreFind (s : State) (status : Nat) : List Nat → State
  | [] => s.restoreEnd status
  | t :: r =>
    let k := s.ckp
    let s := s.setCkp { k with tiers := t :: r }
    if s.tierReading t then s
    else match s.rootsOf t with
    | .error (off, n) => match s.tierAccess t false off n [] 0 with
      | some s => s
      | none => s.restoreFind ckpTier r
    | .ok l =>
      let step := match k.cmd with | some (_, e) => rsStep e | none => 0
      match (if step = 0xFFFFFFFF#32 then currentRoot l else l.find? fun x => wordAt x.2 3 = step) with
      | none => s.restoreFind ckpNoCheckpoint r
      | some (slot, _) =>
        let h := match s.peek t (s.slotBase slot) 256 with | .ok hb => manM (wordsOf 64 hb) | .error _ => 0
        ((s.forget t (s.slotBase slot) h).setCkp { (s.forget t (s.slotBase slot) h).ckp with root := some (t, slot) }).restoreCheck

/-! ### Answers of the tiers -/

/-- The engine goes on after an access of a tier has been answered. -/
def State.ckpAdvance (s : State) : State :=
  let k := s.ckp
  match k.phase with
  | .drain => s.findSlots k.tiers
  | .manifest => if k.reqs.isEmpty then s.prepared else s
  | .roots => if k.reqs.isEmpty then s.committed else s
  | .find => if k.root.isSome then s.restoreCheck else s.restoreFind ckpNoCheckpoint k.tiers
  | .load => s.loadStep
  | _ => s

/-- A tier fails (R587): a drain is abandoned; a restore ends, or tries its next tier while it looks for the checkpoint. -/
def State.ckpFail (s : State) (status : Nat) : State :=
  let k := s.ckp
  match k.phase with
  | .find => if k.root = none then
      let late := (k.reqs.filter fun r => r.tier = 1 || r.tier = 3).map fun (r : TierReq) => { r with tier := 3 }
      let s := { s with outst := s.outst.filter fun o => o.owner ≠ PkOwner.ckpt }
      (s.setCkp { k with reqs := late }).restoreFind status (k.tiers.drop 1)
    else s.restoreEnd status
  | .load => s.restoreEnd status
  | _ => s.ckpAbandon status true

/-- The first access that meets a condition leaves the list. -/
def dropReq (f : TierReq → Bool) : List TierReq → List TierReq
  | [] => []
  | x :: r => if f x then r else x :: dropReq f r

/-- An access answered: what it read is kept, and the engine goes on. -/
def State.tierAnswer (s : State) (f : TierReq → Bool) (data : Bytes) : State :=
  match s.ckp.reqs.find? f with
  | none => s
  | some x =>
    let s := s.setCkp { s.ckp with reqs := dropReq f s.ckp.reqs }
    if x.tier = 3 then s
    else (if x.write then s else s.keep x.tier x.off (data.take x.len)).ckpAdvance

/-- The flash controller answers its oldest access (R557): a write is durable then, a read brings what the flash holds. An access that fails fails its
tier. -/
def execFlashAccessComplete (ok : Bool) (s : State) : Result :=
  .next (
    let f := fun x : TierReq => x.tier = 1 || x.tier = 3
    match s.ckp.reqs.find? f with
    | none => s
    | some x =>
      let s := if ! x.write then s else if ok then s.flashPut x.addr x.data else s.flashTorn x
      if ok || x.tier = 3 then s.tierAnswer f (if x.write then [] else s.flashRead x.addr x.len)
      else (s.setCkp { s.ckp with reqs := dropReq f s.ckp.reqs }).ckpFail ckpTier)

/-! ### The step boundary (R543, R545, R560, R571) -/

/-- A snapshot that is due: its configuration is checked, and its stop starts, in which the context waits at its boundary (R545 to R547). The stop time
is a free value. -/
def State.takeSnap (s : State) (m tiers : Nat) : State :=
  let ranges := s.liveRanges m
  let step := (s.ctx m).step + 1
  let n := s.free
  let s := { s with free := n + 17 }
  if s.snapBad m tiers ranges then s.ckpEvent 0x10 m ckpArea step (Config.freeWord n)
  else match s.cowEnd.cowStart m with
  | none => s.ckpEvent 0x10 m ckpArea step (Config.freeWord n)
  | some s =>
    let data := areaBytes (s.plainsOf m).length + (ranges.map (·.2)).foldl (· + ·) 0
    let ts := (List.range 3).filter fun i => tiers.testBit i
    (s.setReg 0x88054 (Config.freeWord n)).setCkp { Ckp.idle with
      phase := .stop, ctx := m, tiers := ts, hdr := s.manHead m ranges data (n + 1), ranges := ranges, left := pagesIn ranges, reqs := s.ckp.reqs }

/-- The on-chip state lies in the area, and the stop ends (R545): SNAP_TAKEN is posted and the drain starts. -/
def State.endStop (s : State) : State :=
  let k := s.ckp
  let s := (s.fillArea k.ctx k.hdr).setCkp { k with phase := .drain }
  (s.ckpEvent 0x10 k.ctx 0 (wordAt k.hdr 4) (s.reg 0x88054)).ckpAdvance

/-- The verification record of a drain read at the boundary after its snapshot (R560, R566). -/
def State.readVerify (s : State) (m : Nat) : State :=
  let k := s.ckp
  if k.draining && k.ctx = m && k.verify = none then
    let a := s.pairVal 0x88018
    match s.readFault m [(a, 64)] with
    | none => (s.mscRead (.pair m) [(a, 64)]).setCkp { k with verify := some (s.read a 64) }
    | some f => s.ckpAbandon f true
  else s

/-- Action 1 of a step boundary (R175): the verification record of the snapshot before, then the snapshot that is due, taken or deferred. -/
def State.snapBoundary (s : State) (m : Nat) : State :=
  let s := s.readVerify m
  let c := s.ctx m
  if c.snap = 0 then s
  else if s.ckp.phase ≠ .idle then
    if c.deferred then s
    else (((s.setCtx m { c with deferred := true }).bump 0x88058).ckpEvent 0x11 m 0 (c.step + 1) 0)
  else (s.setCtx m { c with snap := 0, deferred := false }).takeSnap m c.snap.toNat

/-- The comparison of a verification step, at its boundary (R571): its completion names that step. -/
def State.verifyStep (s : State) (m : Nat) : State :=
  match (s.ctx m).verify with
  | none => s
  | some v =>
    let a := s.pairVal 0x88018
    let step := (s.ctx m).step
    if (s.readFault m [(a, 64)]).isNone && s.read a 64 = v then (s.mscRead (.pair m) [(a, 64)]).ckpEvent 0x15 m 0 step 0
    else s.ckpEvent 0x16 m ckpVerifyMismatch step 0

/-! ### Ring commands (R539, R563, R568, R585) -/

/-- SNAP_REQUEST (R539, R585). -/
def execSnapRequest (r : Fin 17) (e : Words) (s : State) : Result :=
  .next (s.ring r e 0x10 (r.val < 16) [(2, 0xFFFFFFF8)] 3 fun s =>
    if bits (wordAt e 2) 2 0 = 0 then s.complete r hifPayload
    else (s.requestSnap r (bits (wordAt e 2) 2 0)).complete r 0)

/-- CKP_COMMIT (R563, R585). -/
def execCkpCommit (r : Fin 17) (e : Words) (s : State) : Result :=
  .next (s.ring r e 0x11 (r.val < 16) [(2, 0xFFFFFFFF)] 4 fun s =>
    let k := s.ckp
    if k.phase = .prepared && k.ctx = r.val && wordAt k.hdr 4 = wordAt e 3 then (s.setCkp { k with cmd := some (r.val, e) }).startRoots
    else s.complete r ckpState)

/-- CKP_RESTORE (R568, R569): steps 1 and 2; the rest follows what the tier answers. -/
def execCkpRestore (r : Fin 17) (e : Words) (s : State) : Result :=
  .next (s.ring r e 0x12 (r.val < 16) [(2, 0x07FFFFFF), (5, 0xFFFF)] 11 fun s =>
    if (s.ctx r).st ≠ .idle || s.ckp.phase ≠ .idle then s.complete r ckpState
    else
      let k := s.ckp
      let s := s.setCkp { Ckp.idle with phase := .find, ctx := r.val, cmd := some (r.val, e), reqs := k.reqs }
      s.restoreFind ckpNoCheckpoint (s.restoreTiers e))

end Sys2Proof.Machine
end

