-- ==== Sys2Proof/Machine/Host.lean ====
section
/-! DEFINITION. The host interface: ring pairs, doorbells, ring commands, completions, and losing the host (R495 to R513, R521 to R523,
R530, R531, R706). -/

namespace Sys2Proof.Machine

/-- DESC_STALE, DB_RANGE, HIF_ABANDONED, HIF_HOST_ACCESS and HIF_HOST_LOST (R532). -/
def descStale : Nat := 0x0201
def dbRange : Nat := 0x0202
def hifAbandoned : Nat := 0x0205
def hifHostAccess : Nat := 0x0206
def hifHostLost : Nat := 0x0207

/-- The kinds RING_STOPPED and COMPLETIONS_LOST (R510). -/
def ringStopped : Nat := 0x06
def completionsLost : Nat := 0x07

/-! ### Pairs (R496, R497, R502, R521 to R523) -/

/-- A pair enters a state, with its HOST entry (R606). -/
def State.movePair (s : State) (r : Nat) (st : PairState) (code : Nat) : State :=
  let x := s.pair r
  let s' := s.setPair r { x with st := st, code := BitVec.ofNat 16 code }
  if x.st = st then s' else s'.logAdd logHost (if r < 16 then some r else none) 0 4 r r x.st.code st.code

/-- A pair stops (R497, R501, R510). -/
def State.stopPair (s : State) (r code : Nat) : State :=
  let s := s.setPair r { s.pair r with stale := false }
  let s := s.movePair r .stopped code
  let m := if r < 16 then r else 0
  s.post r (cplWords s ringStopped 0 code m 0 0 (if r < 16 then (s.ctx m).step else 0) 0 [])

/-- EN goes from 0 to 1 on a DISABLED pair (R496). -/
def State.enablePair (s : State) (r : Nat) : State :=
  let x := s.pair r
  let s := s.setPair r { x with en := true, sqHead := 0, cqTail := 0, sqTail := 0, cqHead := 0, stale := false, old := x.cur.isSome }
  s.movePair r .active 0

/-- EN goes to 0 (R502, R534). -/
def State.disablePair (s : State) (r : Nat) : State :=
  let x := s.pair r
  (s.setPair r { x with en := false, stale := false }).movePair r .disabled x.code.toNat

/-- A COPY in progress is abandoned (R522, R523). -/
def State.abandonCopy (s : State) (r : Nat) : State :=
  match (s.pair r).cur with
  | some e => if entryOp e = 0x06 then s.complete r hifAbandoned else s
  | none => s

/-- An ACTIVE or STOPPED pair becomes DETACHED (R521, R522). -/
def State.detachPair (s : State) (r : Nat) : State :=
  let x := s.pair r
  if x.st = .active || x.st = .stopped then
    let s := s.setPair r { x with en := false, stale := false }
    ((s.movePair r .detached hifHostLost).bump 0x1000C).abandonCopy r
  else s

/-- A write of HIF_PAIR_CTRL with DETACH = 0 (R496, R534). -/
def State.pairEn (s : State) (r : Nat) (en : Bool) : State :=
  let x := s.pair r
  if en then (if x.st = .disabled then s.enablePair r else s)
  else if x.st = .disabled then s else s.disablePair r

/-- EN of a pair is written (R496, R502). -/
def execHifPairCtrlEn (v : Nat) (r : Fin 17) (en : Bool) (s : State) : Result :=
  .next (s.regGate (ownView v r) v (offHif r 0x1C) (BitVec.ofNat 32 (b2n en)) fun s => s.pairEn r en)

/-- DETACH of a pair is written (R521). -/
def execHifPairCtrlDetach (v : Nat) (r : Fin 17) (s : State) : Result :=
  .next (s.regGate (ownView v r) v (offHif r 0x1C) 2 fun s => s.detachPair r)

/-- A read of a pair's ring or doorbell memory fails (R521). -/
def execHostReadTimeout (r : Fin 17) (s : State) : Result := .next (s.detachPair r)

/-- Every pair is detached and the link is down (R521, R533). -/
def State.linkLost (s : State) : State := (List.range 17).foldl (fun s r => s.detachPair r) (s.setReg 0x10004 0)

/-- The PCIe link goes down (R521). -/
def execPcieLinkDown (s : State) : Result := .next s.linkLost

/-- Registers of the CXL component registers and of the MSI-X structures (R491); the RAS capability keeps its values over a function-level reset (log
entry 134). -/
def hostStructs (ras : Bool) (off : Nat) : Bool := 0xD0000 ≤ off && off < 0xF0000 && (ras || ! (0xD1100 ≤ off && off < 0xD1200))

/-- The host-facing effects of R523: configuration space, the MSI-X table and the HDM decoder are reset, and with `ras` what else PERST# resets of
them; error reporting keeps its values otherwise (log entry 134). -/
def State.hostReset (s : State) (ras : Bool) : State :=
  let s := (List.range 17).foldl (fun s r => (s.disablePair r).abandonCopy r) s
  { s with pci := s.pci.filter (fun e => ! ras && 0x100 ≤ e.1 && e.1 < 0x160), regs := s.regs.filter fun e => ! hostStructs ras e.1 }

/-- A function-level reset (R523). -/
def execFunctionLevelReset (s : State) : Result := .next (s.hostReset false)

/-- PERST# takes the link down and then resets the host interface (R692). -/
def execPerst (s : State) : Result := .next (s.linkLost.hostReset true)

/-- The PCIe link trains (R487, R490). -/
def execPcieLinkUp (o : PcieObs) (s : State) : Result :=
  .next (s.setReg 0x10004 (BitVec.ofNat 32 (2 ^ 31 + b2n o.cxl * 2 ^ 30 + b2n (o.cxl && o.cache) * 2 ^ 29 + b2n (o.cxl && o.mem) * 2 ^ 28 +
    o.width.toNat * 2 ^ 16 + o.rate.toNat * 2 ^ 8)))

/-- Whether P1 has started configuration space since the last cold reset (R628, R630): bring-up has passed P1, waits at its end, or has been taken back to
it by the loss of the gated rails (R681, R686). -/
def State.configServed (s : State) : Bool := s.board.power && (s.board.waiting || s.board.trip || ! (s.phase ≤ 1 || s.phase = 6))

/-- The bits of a word that byte enables name. -/
def beMask (be : BitVec 4) : W32 := BitVec.ofNat 32 (((List.range 4).map fun i => if be.getLsbD i then 255 * 2 ^ (8 * i) else 0).sum)

/-- A write of configuration space (R487, R523): Initiate Function-Level Reset resets the function, and pending vectors that it unmasks are sent. -/
def State.cfgWrite (s : State) (off : Nat) (value mask : W32) : State :=
  match pciRow off with
  | none => s
  | some r =>
    let v := (s.cfg off &&& ~~~mask &&& ~~~(BitVec.ofNat 32 r.w1c)) ||| (value &&& mask)
    let s := (s.setCfg off (r.merge (s.cfg off) v)).unmaskMsix
    if off = 0x58 && bit (value &&& mask) 15 then s.hostReset false else s

/-- A configuration request is answered (R630). -/
def execConfigurationRequest (s : State) (q : CfgReq := .read 0) : Result :=
  .next (if ! s.configServed then { s with hostTx := s.hostTx ++ [.retry] }
    else match q with
      | .read off => { s with hostTx := s.hostTx ++ [.configData off (s.cfg (off / 4 * 4))] }
      | .write off value be =>
        let s := s.cfgWrite (off / 4 * 4) value (beMask be)
        { s with hostTx := s.hostTx ++ [.configDone] })

/-! ### Doorbells and entries (R495 to R503) -/

/-- CXL operation (R490). -/
def State.cxl (s : State) : Bool := bit (s.reg 0x10004) 30

/-- The doorbell line is read, and the entry at SQ_HEAD with it (R494, R495, R497, R501): an entry that is not valid will be read again. -/
def State.doorbell (s : State) (r : Nat) (o : DoorbellObs) : State :=
  let x := s.pair r
  if ! (s.inD0 && (x.st = .active || x.st = .stopped)) then s
  else
    let s := { s with hostTx := s.hostTx ++ [HostOut.read (s.pairVal (offHif r 0x10)) 64] }
    let s := (s.setPair r { x with sqTail := o.sqTail, cqHead := o.cqHead }).fetchEntry r
    if x.st = .active && ((o.sqTail - x.sqHead).toNat > 2 ^ s.sqLog r || (x.cqTail - o.cqHead).toNat > 2 ^ s.cqLog r) then s.stopPair r dbRange
    else if s.readsEntry r && ! s.entryValid r o.entry then s.setPair r { s.pair r with stale := true }
    else s

/-- A valid entry of an opcode that no ring command has (R504, R505). -/
def State.unknownEntry (s : State) (r : Nat) (e : Words) : State :=
  let op := entryOp e
  if s.readsEntry r && s.entryValid r e && ! (op < 8 || (0x10 ≤ op && op ≤ 0x13)) then (s.takeEntry r e).complete r hifOpcode else s

/-- The HIF_POLL interval expires in PCIe-only operation (R500). -/
def execDoorbellPoll (r : Fin 17) (o : DoorbellObs) (s : State) : Result :=
  .next (if s.cxl then s else (s.doorbell r o).unknownEntry r o.entry)

/-- The host takes the doorbell line away in CXL operation (R500). -/
def execDoorbellLineLost (r : Fin 17) (o : DoorbellObs) (s : State) : Result :=
  .next (if s.cxl then (s.doorbell r o).unknownEntry r o.entry else s)

/-- The entry at SQ_HEAD is read: again, and counted, where it was found invalid; or for the first time, where it has become the head because the entry
before it has completed (R501). -/
def execStaleReread (r : Fin 17) (e : Words) (s : State) : Result :=
  .next (if ! s.readsEntry r then s
    else
      let s := (if (s.pair r).stale then s.bump (offHif r 0x2C) else s).fetchEntry r
      let s := s.setPair r { s.pair r with stale := ! s.entryValid r e }
      s.unknownEntry r e)

/-- An entry is still invalid 1 ms after its first read (R501). -/
def execDescStale (r : Fin 17) (e : Words) (s : State) : Result :=
  .next (if s.readsEntry r && (s.pair r).stale && ! s.entryValid r e then s.stopPair r descStale else s)

/-! ### Commands of contexts (R505, R506) -/

/-- NOP (R505). -/
def execNop (r : Fin 17) (e : Words) (s : State) : Result := .next (s.ring r e 0x00 true [] 2 fun s => s.complete r 0)

/-- ARM (R169, R505). -/
def execArm (r : Fin 17) (e : Words) (s : State) : Result :=
  .next (s.ring r e 0x01 (r.val < 16) [] 9 fun s =>
    let (st, s) := s.arm r ((e.drop 2).take 7)
    s.complete r st)

/-- START (R172, R505): while the watershed holds the device it waits (R613). -/
def execStart (r : Fin 17) (e : Words) (s : State) : Result :=
  .next (s.ring r e 0x02 (r.val < 16) [] 2 fun s' =>
    if ! s'.running then s
    else
      let (st, s) := s'.startCtx r
      s.complete r st)

/-- PAUSE (R505). -/
def execPause (r : Fin 17) (e : Words) (s : State) : Result :=
  .next (s.ring r e 0x03 (r.val < 16) [(2, 0xFFFFFFFE)] 3 fun s => (s.pauseCtx r (bit (wordAt e 2) 0)).complete r 0)

/-- DISARM (R170, R505). -/
def execDisarm (r : Fin 17) (e : Words) (s : State) : Result :=
  .next (s.ring r e 0x04 (r.val < 16) [] 2 fun s =>
    let (st, s) := s.disarmCtx r
    s.complete r st)

/-- Whether a host write that has arrived waits to be applied: for copy-on-write, or for the end of a move of the window (R506, R517). -/
def State.hostWrites (s : State) : Bool :=
  (s.cow.waiting.any fun w => w.owner = .host) || s.win.wait.any fun x => match x with
    | .write _ _ => true
    | .read _ _ => false

/-- SYNC_ADD (R506): it waits for the host writes received before it. -/
def execSyncAdd (r : Fin 17) (e : Words) (s : State) : Result :=
  .next (s.ring r e 0x05 (r.val < 16) [(2, 0xFFFFC000), (3, 0xFFFF0000)] 4 fun s' =>
    let o := bits (wordAt e 2) 13 0
    let n := bits (wordAt e 3) 15 0
    if n = 0 then s'.complete r hifPayload
    else if ! s'.ownsObj r o then s'.complete r syncOwner
    else if s'.hostWrites then s
    else (s'.addObj o n).complete r 0)

/-! ### COPY and NET_XFER (R507, R508, R530, R531, R706) -/

/-- Word 2 of a COPY or NET_XFER: DIR or OP, SIG_EN and OBJ. -/
def cpDir (e : Words) : Bool := bit (wordAt e 2) 31
def cpSig (e : Words) : Bool := bit (wordAt e 2) 30
def cpObj (e : Words) : Nat := bits (wordAt e 2) 13 0

/-- SYNC_OWNER for an OBJ that the pair's context does not own (R706). -/
def State.objBad (s : State) (r : Nat) (e : Words) : Bool := cpSig e && r < 16 && ! s.ownsObj r (cpObj e)

/-- The context on whose behalf a pair accesses device memory (R508). -/
def pairCtx (r : Nat) : Option Nat := if r < 16 then some r else none

/-- The addition at completion (R706). -/
def State.addSig (s : State) (e : Words) : State := if cpSig e then s.addObj (cpObj e) 1 else s

/-- Fields of a COPY (R507). -/
def cpHost (e : Words) : Nat := dword e 3
def cpDev (e : Words) : Nat := dword e 5
def cpBytes (e : Words) : Nat := (wordAt e 7).toNat

/-- Host memory read in requests of at most 4,096 bytes, none of which crosses a multiple of 4,096 (R487). -/
def hostReads (a n : Nat) : List HostOut :=
  if n = 0 then []
  else (List.range ((a + n - 1) / 4096 + 1 - a / 4096)).map fun i =>
    let lo := max a ((a / 4096 + i) * 4096)
    HostOut.read lo (min (a + n) ((a / 4096 + i + 1) * 4096) - lo)

/-- COPY starts (R504, R508): the host is read for DIR = 0. -/
def execCopy (r : Fin 17) (e : Words) (s : State) : Result :=
  .next (s.ring r e 0x06 true [(2, 0x3FFFC000)] 8 fun s =>
    if cpHost e % 64 ≠ 0 || cpDev e % 64 ≠ 0 || cpBytes e % 64 ≠ 0 || cpBytes e = 0 then s.complete r hifPayload
    else if s.objBad r e then s.complete r syncOwner
    else match s.refused (pairCtx r) (cpDev e) (cpBytes e) (! cpDir e) with
    | some f => s.complete r f
    | none => if cpDir e then s else { s with hostTx := s.hostTx ++ hostReads (cpHost e) (cpBytes e) })

/-- The lines of a run written to the host, poisoned lines as poisoned (R508). -/
def State.copyOut (s : State) (host dev : Nat) : Nat → State
  | 0 => s
  | n + 1 =>
    let s := s.copyOut host dev n
    let (bs, s') := s.freePoison (dev + 64 * n) (s.read (dev + 64 * n) 64) s.poisoned
    { s' with hostTx := s'.hostTx ++ [.write (host + 64 * n) bs (s.poisoned (dev + 64 * n) 64)] }

/-- The data of a COPY put in place, and the status it will complete with (R401, R508, R532). -/
def State.copyData (s : State) (r : Nat) (e : Words) (o : CopyObs) : Nat × State :=
  if ddrBase ≤ cpDev e && s.ddrFailed then (ddrChannelFail, s)
  else if cpDir e then
    let n := if o.hostFail then min o.data.length (cpBytes e) else cpBytes e
    let bad := s.poisoned (cpDev e) n
    (if o.hostFail then hifHostAccess else if bad then memUncorr else 0,
      (s.mscRead (.pair r) [(cpDev e, n)]).copyOut (cpHost e) (cpDev e) (n / 64))
  else
    let bs := o.data.take (cpBytes e)
    let bad := (o.poisoned.filter fun i => 64 * i < bs.length).map fun i => cpDev e / 64 + i
    (if o.hostFail then hifHostAccess else if bad.isEmpty then 0 else memUncorr, s.write (.pair r) (wholeBytes (cpDev e) bs) bad)

/-- Whether writes of a pair's command wait for copy-on-write. -/
def State.pairWrites (s : State) (r : Nat) : Bool := s.cow.waiting.any fun w => w.owner = .pair r

/-- A COPY completes once its bytes are in place (R508, R706); one that failed adds nothing to OBJ. -/
def State.copyEnd (s : State) (r : Nat) (e : Words) (st : Nat) : State :=
  if s.pairWrites r then s.setPair r { s.pair r with copied := some st }
  else (if st = 0 || st = memUncorr then s.addSig e else s).complete r st

/-- The host accesses of a COPY have ended, or, a second time, its writes have been applied (R508). -/
def execCopyComplete (r : Fin 17) (o : CopyObs) (s : State) : Result :=
  .next (
    let x := s.pair r
    match x.cur with
    | none => s
    | some e =>
      if entryOp e ≠ 0x06 then s
      else match x.copied with
      | some st => s.copyEnd r e st
      | none =>
        let (st, s) := s.copyData r e o
        s.copyEnd r e st)

/-- Fields of a NET_XFER (R530). -/
def nxQp (e : Words) : Nat := bits (wordAt e 3) 23 0
def nxDev (e : Words) : Nat := dword e 7
def nxBytes (e : Words) : Nat := (wordAt e 9).toNat

/-- Whether a pair may use a queue pair (R530, R531). -/
def State.qpOk (s : State) (r q : Nat) : Bool :=
  q < 512 && s.qpState q = 1 && (if r < 16 then ! bit (s.qpWord q 0) 24 && bits (s.qpWord q 0) 29 26 = r else bit (s.qpWord q 0) 24)

/-- NET_XFER starts (R530, R531). -/
def execNetXfer (r : Fin 17) (e : Words) (s : State) : Result :=
  .next (s.ring r e 0x07 true [(2, 0x3FFFC000), (3, 0xFF000000)] 10 fun s =>
    if nxDev e % 64 ≠ 0 || nxBytes e % 64 ≠ 0 || nxBytes e = 0 || nxBytes e > 0x80000000 then s.complete r hifPayload
    else if s.objBad r e then s.complete r syncOwner
    else if ! s.qpOk r (nxQp e) then s.complete r ethQpInvalid
    else match s.refused (pairCtx r) (nxDev e) (nxBytes e) (! cpDir e) with
    | some f => s.complete r f
    | none =>
      if cpDir e && s.poisoned (nxDev e) (nxBytes e) then s.complete r memUncorr
      else s.startXfer (nxQp e) ⟨some r, cpDir e, wordAt e 4, dword e 5, nxDev e, nxBytes e, 0, false, [], 0⟩)

/-- The transfer of a pair on a queue pair. -/
def State.xferOf (s : State) (q r : Nat) : Option Xfer := (s.qp q).xfers.find? fun t => t.pair = some r

/-- A NET_XFER completes (R531, R706). -/
def execNetXferComplete (r : Fin 17) (s : State) : Result :=
  .next (match (s.pair r).cur with
    | none => s
    | some e => if entryOp e ≠ 0x07 then s
      else
        let q := nxQp e
        match s.xferOf q r with
        | none => s
        | some t =>
          let s' := s.setQp q { s.qp q with xfers := (s.qp q).xfers.filter fun t => t.pair ≠ some r.val }
          if t.failed then s'.complete r ethQpError
          else if t.done < t.bytes || s.pairWrites r then s
          else (s'.addSig e).complete r 0)

/-! ### Completions (R511, R512) -/

/-- Queued completions posted while there is room, then COMPLETIONS_LOST (R512). -/
def State.flushPair (s : State) (r : Nat) : List Words → State
  | [] =>
    let x := s.pair r
    if x.lost ≠ 0 && s.canPost r then
      let m := if r < 16 then r else 0
      let ws := cplWords s completionsLost 0 0 m 0 0 (if r < 16 then (s.ctx m).step else 0) x.lost.toNat []
      (s.setPair r { x with lost := 0 }).postNow r ws
    else s
  | w :: rest => if s.canPost r then ((s.setPair r { s.pair r with ovf := rest }).postNow r w).flushPair r rest else s

/-- Posting is possible again (R512). -/
def execOverflowQueuePost (r : Fin 17) (s : State) : Result := .next (s.flushPair r (s.pair r).ovf)

/-- COAL_US has elapsed since the last vector of the pair (R511, R522). -/
def execIrqCoalesce (r : Fin 17) (s : State) : Result :=
  .next (
    let x := s.pair r
    if ! x.irq then s
    else
      let s := s.setPair r { x with irq := false }
      if (x.st = .active || x.st = .stopped) && bit (s.reg (offHif r 0x18)) 31 && x.cqTail ≠ x.cqHead then
        (s.setPair r { s.pair r with irqAt := some s.time }).sendMsix r
      else s)

end Sys2Proof.Machine
end

