-- ==== Sys2Proof/Machine/Age.lean ====
section
/-! DEFINITION. Margin re-planning, and the power and thermal limits of the plain clocks (R576 to R579, R676 to R679, R685, R698). -/

namespace Sys2Proof.Machine

/-- AGE_FLOOR (R587) and the kind MARGIN_STEP (R586). -/
def ageFloor : Nat := 0x1201
def marginStep : Nat := 0x18

/-! ### Clocks (R577, R677, R678) -/

/-- The margin clock of a plain, in MHz (R589), and its power clock (R698). -/
def State.marginMhz (s : State) (p : Nat) : Nat := bits (s.reg (0x90100 + 0x10 * p)) 31 20
def State.powerMhz (s : State) (p : Nat) : Nat := bits (s.reg (0xB8100 + 4 * p)) 19 8

/-- The clocks of a plain as CLK_PLAIN shows them: the power clock and the lower of both (R678). -/
def State.setClock (s : State) (p mhz : Nat) : State :=
  s.setReg (0xB8100 + 4 * p) (BitVec.ofNat 32 (min mhz (s.marginMhz p) * 2 ^ 20 + mhz * 2 ^ 8))

/-- Whether a power clock is below the margin clock of its plain. -/
def State.clocksLow (s : State) : Bool := (List.range 16).any fun p => s.powerMhz p < s.marginMhz p

/-- LIMITING clears once no power clock is below its margin clock (R698). -/
def State.relimit (s : State) : State := if s.clocksLow then s else s.setBits 0xB8004 0x80000000#32 0

/-- What the margin plan reads as where no step is kept (R589). -/
def planDefault (k : Nat) : W32 := if k = 16 then 0 else 0xA8C00000#32

/-- A step of a plain's margin kept in the flash store (R578). -/
def State.keepPlan (s : State) (p : Nat) : State :=
  { s with plan := storePut planDefault (storePut planDefault s.plan p (s.reg (0x90100 + 0x10 * p))) 16 (s.reg 0x90004) }

/-- The floor of a plain (R579, R201, R708): its context halts. -/
def State.floorPlain (s : State) (p : Nat) : State :=
  let s := (s.setBits 0x90004 (BitVec.ofNat 32 (2 ^ (16 + p))) 0xFFFFFFFF#32).keepPlan p
  let x := s.plain p
  let tag := match x.fetched with
    | some ws => wordAt ws 2
    | none => s.tagAt p x.pos x.prologue
  s.fault p ageFloor tag tag false 1 p 0

/-- The margin controller measures a plain (R576 to R579). -/
def execAgeMeasure (p : Fin 16) (slackPs roCount : BitVec 16) (s : State) : Result :=
  .next (
    let s := s.setReg (0x90104 + 0x10 * p.val) (BitVec.ofNat 32 (roCount.toNat * 2 ^ 16 + slackPs.toNat))
    let ctl := s.reg 0x90000
    let w := s.reg (0x90100 + 0x10 * p.val)
    let vofs := bits w 19 14
    let mhz := bits w 31 20
    if bits ctl 23 16 ≤ slackPs.toNat then s
    else if vofs < bits ctl 5 0 then (s.setReg (0x90100 + 0x10 * p.val) (w + 0x4000#32)).keepPlan p
    else if mhz > 2000 then
      let s := s.setReg (0x90100 + 0x10 * p.val) (BitVec.ofNat 32 ((mhz - 25) * 2 ^ 20 + vofs * 2 ^ 14 + bits w 4 0 + 1))
      let s := (s.setBits 0x90004 (BitVec.ofNat 32 (2 ^ p.val)) 0xFFFFFFFF#32).keepPlan p
      let s := (s.setClock p (s.powerMhz p)).relimit.logAdd logMargin (s.owner p) 0 1 p p (mhz - 25) vofs
      let step := match s.owner p with
        | some m => (s.ctx m).step
        | none => 0
      s.adminEvent marginStep 0 [step, BitVec.ofNat 32 p.val]
    else if bit (s.reg 0x90004) (16 + p.val) then s
    else s.floorPlain p)

/-! ### Power (R676 to R679) -/

/-- The input power is measured (R676, R698). -/
def execPwrMeasure (watts : BitVec 16) (s : State) : Result := .next (s.setBits 0xB8004 0xFFFF (watts.setWidth 32))

/-- Every power clock falls by 25 MHz, not below 2,000 MHz (R677). -/
def State.lowerClocks (s : State) : State := (List.range 16).foldl (fun s p => s.setClock p (max 2000 (s.powerMhz p - 25))) s

/-- The power stands over a limit (R677). -/
def execPwrClockLower (s : State) : Result :=
  .next (
    let s := s.lowerClocks
    s.setBits 0xB8004 0x80000000#32 (if s.clocksLow then 0x80000000#32 else 0))

/-- LIMIT_W in force (R698). -/
def State.powerLimit (s : State) : Nat := max 1500 (min 3000 (bits (s.reg 0xB8000) 15 0))

/-- The power has stayed at least 50 W below the limit, as INPUT_W shows (R677): while the device is lowered for temperature the clocks do not rise
(R685). -/
def execPwrClockRaise (s : State) : Result :=
  .next (
    if bit (s.reg 0xB8004) 30 || s.powerLimit < bits (s.reg 0xB8004) 15 0 + 50 then s
    else ((List.range 16).foldl (fun s p => s.setClock p (max (s.powerMhz p) (min (s.powerMhz p + 25) (s.marginMhz p)))) s).relimit)

/-- The power clocks stand at 2,000 MHz and the power stays over 3,000 W (R679); the kind of the log entry is a choice (log entry 41). -/
def execPwrFloor (s : State) : Result :=
  .next (
    if (List.range 16).all fun p => s.powerMhz p = 2000 then
      let s := s.setBits 0xB8004 0x20000000#32 0x20000000#32
      let f := fun k => (Config.freeWord (s.free + k)).toNat
      { s with free := s.free + 3 }.logAdd logManagement none 0 0 0 (f 0) (f 1) (f 2)
    else s)

/-! ### Temperature (R685) -/

/-- TJ_LIMIT_C in force (R698). -/
def State.tjLimit (s : State) : Nat := min 105 (bits (s.reg 0xB8008) 15 8)

/-- The highest junction reading recorded (R698). -/
def State.setTj (s : State) (t : BitVec 8) : State := s.setBits 0xB8008 0x00FF0000#32 (BitVec.ofNat 32 (t.toNat * 2 ^ 16))

/-- A junction reads above the limit (R685). -/
def execThermalThrottle (tempC : BitVec 8) (s : State) : Result :=
  .next (
    let s := s.setTj tempC
    if tempC.toNat > s.tjLimit then s.lowerClocks.setBits 0xB8004 0x40000000#32 0x40000000#32 else s)

/-- Every sensor has stayed 5 K below the limit for 10 ms (R685). -/
def execThermalRecover (tempC : BitVec 8) (s : State) : Result :=
  .next (
    let s := s.setTj tempC
    if tempC.toNat + 5 ≤ s.tjLimit then s.setBits 0xB8004 0x40000000#32 0 else s)

end Sys2Proof.Machine
end

