-- ==== Sys2Proof/Machine/Boundary.lean ====
section
/-! DEFINITION. STEP_END and the step boundary (R173 to R177, R475, R581, R592). -/

namespace Sys2Proof.Machine

/-- The completion kinds CTX_PAUSED, CTX_DONE and FW_ACTIVATED (R510, R586). -/
def ctxPaused : Nat := 0x03
def ctxDone : Nat := 0x04
def fwActivated : Nat := 0x17

/-- The first failing check of a STEP_END (R176, R177, R179). -/
def State.stepEndCheck (s : State) (p : Nat) (ws : Words) : Option Nat :=
  let x := s.plain p
  let last := match s.streamOf p true with
    | some st => ! x.prologue && x.pos + 64 = st.bytes
    | none => false
  if hdrReserved ws || anyWords ws 4 16 then some 0x0B01
  else if pccHdrBad ws 1 || hdrDoneObj ws ≠ 0 then some pccInvalid
  else if ! last then some streamEnd
  else none

/-- Whether every earlier command of a plain has ended, and nothing that it wrote or signalled is outstanding (R174). -/
def State.settled (s : State) (p : Nat) : Bool := s.fenceMet p 2 && ! s.outst.any fun o => match o.owner with
  | .cmd q _ _ _ _ _ => q = p
  | .gone _ => false
  | .ckpt => false

/-- The P set of a plain copied into its shadow at a boundary, and reset (R592); its SYNC_WAIT cycles count in the global counter 15 (R600). -/
def State.copyP (s : State) (m p : Nat) : State :=
  let k := 4 * p + 3
  let live := storeGet zeroRec s.cntLive k
  let d := s.free
  let r := [(s.ctx m).step, 0, BitVec.ofNat 32 (p * 2 ^ 20 + 3 * 2 ^ 14), wordAt (storeGet zeroRec s.cntShadow k) 3 + 1,
    s.time.setWidth 32, (s.time >>> 32).setWidth 32, wordAt live 6] ++ stallWords d 3 ++ (live.drop 20)
  ({ s with cntShadow := storePut zeroRec s.cntShadow k r, cntLive := storePut zeroRec s.cntLive k (zeroRec k),
            free := d + 14 }.addGlb 15 (wordAt r 8).toNat).trace m r true

/-- A plain part that waits for its boundary is switched (R175, R581). -/
def State.switchPlain (s : State) (m : Nat) : State :=
  let c := s.ctx m
  match c.fwNext with
  | none => s
  | some v => (s.setCtx m { c with fwPlain := v, fwNext := none }).event fwActivated m 0 0 0 [c.step]

/-- A layout epoch that waits for its boundary is taken (R175, R475). -/
def State.switchEpoch (s : State) (m : Nat) : State :=
  let c := s.ctx m
  match c.pending with
  | none => s
  | some e => s.setCtx m { c with epoch := e, pending := none }

/-- Actions 4 and 5 of a boundary (R175): the next step, and whether the context goes on; a verification step ends in DONE (R571). -/
def State.nextStep (s : State) (m : Nat) : State :=
  let c := s.ctx m
  let s := s.setCtx m { c with step := c.step + 1, stepsDone := c.stepsDone + 1, verify := none }
  let idle := (s.plainsOf m).foldl (fun s p => s.setPlain p { s.plain p with pcc := .idle }) s
  if c.verify.isSome || (c.stepCount ≠ 0 && c.stepsDone + 1 = c.stepCount) then (idle.setCtxState m .done).event ctxDone m 0 0 0
  else if c.pause then (idle.setCtxState m .paused).event ctxPaused m 0 0 0
  else (s.plainsOf m).foldl (fun s p => s.startPcc p false) s

/-- Actions 2 to 5 of a step boundary (R175). -/
def State.boundaryRest (s : State) (m : Nat) : State := ((s.switchPlain m).switchEpoch m).nextStep m

/-- Whether a context waits at its boundary for the end of its snapshot's stop (R547). -/
def State.inStop (s : State) (m : Nat) : Bool := s.ckp.phase = .stop && s.ckp.ctx = m

/-- The actions of a step boundary, in the order of R175; those after a snapshot's stop follow it. -/
def State.boundary (s : State) (m : Nat) : State :=
  let s := (s.plainsOf m).foldl (fun s p => s.copyP m p) s
  let s := (s.verifyStep m).snapBoundary m
  if s.inStop m then s else s.boundaryRest m

/-- The checkpoint engine ends the stop of a snapshot, and its context goes on (R545); or it reads the next piece of the data stream, writes it to every
tier, and marks or frees its page (R551 to R554). -/
def execCkpDrainRead (s : State) : Result :=
  .next (if s.ckp.phase = .stop then s.endStop.boundaryRest s.ckp.ctx else s.drainRead)

/-- The PCC checks a STEP_END and executes it once its plain is settled; the last PCC of the context reaches the step boundary (R173 to R177). A
break after it compares the step that ends (R619). -/
def execStepEnd (p : Fin 16) (s : State) : Result :=
  .next (s.reach p 0x22 fun s m ws =>
    match s.stepEndCheck p ws with
    | some code => s.issueFault p code
    | none =>
      if ! s.settled p then s
      else
        let brk := s.breakMatch m ws true
        let s := s.advance p
        let s := s.setPlain p { s.plain p with pcc := .stepEnd }
        let s := if (s.plainsOf m).all fun q => (s.plain q).pcc = .stepEnd then s.boundary m else s
        if brk then s.takeBreak else s)

end Sys2Proof.Machine
end

