-- ==== Sys2Proof/Machine/Coll.lean ====
section
/-! DEFINITION. Collectives (R461 to R474, R705), and the wait limit of a plain (R195, R197, R204, R233). -/

namespace Sys2Proof.Machine

/-- COLL_SEQ and COLL_RANKS (R479). -/
def collSeq : Nat := 0x0E05
def collRanks : Nat := 0x0E06

/-- A COLL descriptor read (R461); `n` is the number of ranks. -/
structure Cl where
  op       : Nat
  inFmt    : Nat
  outFmt   : Nat
  sig      : Bool
  sigObj   : Nat
  rank     : Nat
  n        : Nat
  arrive   : Nat
  free     : Nat
  arrBase  : W32
  arrStep  : Nat
  freeBase : W32
  freeStep : Nat
  evBase   : W32
  evStep   : Nat
  shard    : Nat
  vc       : Nat
  src      : Nat
  dst      : Nat
  stage    : Nat
  tags     : Nat
  ranks    : Nat

/-- The fields of a COLL (R461). -/
def clOf (ws : Words) : Cl :=
  let w4 := wordAt ws 4
  let w5 := wordAt ws 5
  let w9 := wordAt ws 9
  { op := bits w4 31 30, inFmt := bits w4 29 28, outFmt := bits w4 27 26, sig := bit w4 25, sigObj := bits w4 13 0,
    rank := bits w5 27 16, n := bits w5 11 0 + 1, arrive := bits (wordAt ws 6) 13 0, free := bits (wordAt ws 7) 13 0,
    arrBase := wordAt ws 8, arrStep := bits w9 15 0, freeBase := wordAt ws 10, freeStep := bits w9 31 16, evBase := wordAt ws 11,
    evStep := bits (wordAt ws 12) 15 0, shard := (wordAt ws 13).toNat, vc := bits (wordAt ws 14) 1 0, src := dword ws 16, dst := dword ws 18,
    stage := dword ws 20, tags := dword ws 22, ranks := dword ws 24 }

/-- Whether the COLL reduces: ALL_REDUCE and REDUCE_SCATTER. -/
def Cl.reduces (d : Cl) : Bool := d.op < 2

/-- Elements of a shard, and O, the bytes of an output shard (R463). -/
def Cl.elems (d : Cl) : Nat := d.shard * 8 / elemBits d.inFmt
def Cl.outBytes (d : Cl) : Nat := if d.reduces then d.elems * elemBits d.outFmt / 8 else d.shard

/-- Reserved fields of a COLL (R461, R9). -/
def clReserved (ws : Words) : Bool :=
  hdrReserved ws || anyBits ws [(4, 0x01FFC000), (5, 0xF000F000), (6, 0xFFFFC000), (7, 0xFFFFC000), (12, 0xFFFF0000), (14, 0xFFFFFFFC)] ||
  wordAt ws 15 ≠ 0 || anyWords ws 26 32

/-- PCC_CMD_INVALID of a COLL (R179, R472). -/
def Cl.invalid (d : Cl) (ws : Words) : Bool :=
  pccHdrBad ws 2 || d.inFmt = 3 || d.outFmt = 3 || (! d.reduces && (d.inFmt ≠ 0 || d.outFmt ≠ 0)) || d.vc = 0 || d.n ≤ d.rank || d.n > 2048 ||
  d.shard = 0 || d.shard % 64 ≠ 0 || (d.inFmt = 2 && d.shard % 192 ≠ 0) || d.outBytes % 64 ≠ 0 ||
  (d.reduces && d.elems * elemBits d.outFmt % 8 ≠ 0) || d.src % 64 ≠ 0 || d.dst % 64 ≠ 0 || d.tags % 64 ≠ 0 || d.stage % 4096 ≠ 0 ||
  (if d.reduces then d.stage = 0 else d.stage ≠ 0)

/-- Whether a context owns a global object (R184). -/
def State.ownsGlobal (s : State) (m o : Nat) : Bool := o < 4096 && s.ownsObj m o

/-- The first failing check of a COLL, and the object it names (R472). -/
def State.clCheck (s : State) (m : Nat) (ws : Words) : Option (Nat × Nat) :=
  let d := clOf ws
  if clReserved ws then some (0x0B01, 0)
  else if d.invalid ws then some (pccInvalid, 0)
  else if d.sig && ! s.ownsObj m d.sigObj then some (syncOwner, d.sigObj)
  else if ! s.ownsGlobal m d.arrive then some (syncOwner, d.arrive)
  else if ! s.ownsGlobal m d.free then some (syncOwner, d.free)
  else none

/-- The PCC checks a COLL and places it in its engine's queue (R417, R472). -/
def execColl (p : Fin 16) (s : State) : Result :=
  .next (s.reach p 0x26 fun s m ws =>
    match s.clCheck m ws with
    | some (code, o) => s.issueFault p code o
    | none => s.placeJob p m true)

/-! ### Waits and targets (R465) -/

/-- The event sequence number and the targets of an instance (R465). -/
def Cl.ev (d : Cl) (n : W32) : W32 := d.evBase + BitVec.ofNat 32 d.evStep * n
def Cl.freeTarget (d : Cl) (n : W32) : W32 := d.freeBase + BitVec.ofNat 32 d.freeStep * n
def Cl.arriveTarget (d : Cl) (n : W32) (phase : Nat) : W32 :=
  d.arrBase + BitVec.ofNat 32 d.arrStep * n + BitVec.ofNat 32 (phase * (d.n - 1))

/-- The object and the target that a COLL waits for. -/
def Job.waitFor (j : Job) : Option (Nat × W32) :=
  let d := clOf j.words
  if ! (j.coll && j.moved) then none
  else match j.phase with
    | .free => some (d.free, d.freeTarget j.step)
    | .arrive => some (d.arrive, d.arriveTarget j.step 0)
    | .second => some (d.arrive, d.arriveTarget j.step 1)
    | _ => none

/-- A wait of a COLL starts: its range is checked (R194, R465). -/
def State.collWait (s : State) (p : Nat) (j : Job) : State :=
  let j' := { j with moved := true }
  let s := s.setJob p j'
  match j'.waitFor with
  | some (o, t) => if reached (s.obj o) t || ahead (s.obj o) t then s else s.faultJob p j syncRange o
  | none => s

/-- Whether the wait of a COLL is met; a COLL whose wait timed out stays stopped (R197). -/
def State.collMet (s : State) (j : Job) : Bool :=
  s.running && ! j.out && (match j.waitFor with
    | some (o, t) => reached (s.obj o) t
    | none => false)

/-! ### The rank table (R462, R472) -/

/-- The engine reads the rank table of the COLL that is due, checks it, and waits for FREE (R465, R472). -/
def execCollRankTableRead (p : Fin 16) (id : Nat) (s : State) : Result :=
  .next (match (s.plain p).jobs.find? fun j => j.id = id && j.coll && j.phase = .queued, s.owner p with
    | some j, some m =>
      if ! s.running || ! s.jobsBefore p id then s
      else
        let d := clOf j.words
        match s.readFault m [(d.ranks, 2 * d.n)] with
        | some code => s.faultJob p j code
        | none =>
          let es := (List.range d.n).map fun r => leNat (s.read (d.ranks + 2 * r) 2)
          let s := s.mscRead (.cmd p id) [(d.ranks, 2 * d.n)]
          if (es.any fun e => 4096 ≤ e) || ! s.isSelf (es.getD d.rank 0) then s.faultJob p j collRanks
          else if (List.range d.n).any fun r => r ≠ d.rank && ! s.reachable (es.getD r 0) then s.faultJob p j lnkUnreachable
          else s.collWait p { j with phase := .free, ranks := es }
    | _, _ => s)

/-! ### Sending (R464, R465) -/

/-- A tag (R465). -/
def collTag (ev : W32) (epoch rank phase : Nat) : Bytes :=
  bytesOf ([ev, BitVec.ofNat 32 (epoch * 2 ^ 16 + rank), BitVec.ofNat 32 phase] ++ List.replicate 13 0)

/-- Whether a packet of a command to a device is not settled. -/
def State.packetsTo (s : State) (p id dev : Nat) : Bool :=
  s.outst.any fun o => o.pk.dst = dev && (match o.owner with
    | .cmd q i _ _ _ _ => q = p && i = id
    | .gone _ => false
    | .ckpt => false)

/-- The owner of a COLL's packets. -/
def Job.owner (j : Job) (p : Nat) (signal : Bool) : PkOwner := .cmd p j.id (hdrTag j.words) j.pos j.pro signal

/-- Data that a COLL sends to a device, with the lines that are poisoned (R440, R705). -/
def State.collWrite (s : State) (p m : Nat) (j : Job) (dev a : Nat) (data : Bytes) (bad : List Nat) : State :=
  let d := clOf j.words
  let c := s.ctx m
  let s := s.sendPieces 6 d.vc dev c.runTag.toNat c.epoch.toNat (d.ev j.step) a data bad (j.owner p false)
  (s.addP p 27 (data.length / 64)).addP p 23 bad.length

/-- A COLL_SIGNAL that adds 1 to an object of a device (R465). -/
def State.collSignal (s : State) (p m : Nat) (j : Job) (dev o : Nat) : State :=
  let c := s.ctx m
  let (req, s) := s.takeReq
  s.sendHeld (s.mkPacket 7 0 dev c.runTag.toNat c.epoch.toNat ((clOf j.words).ev j.step) (req * 2 ^ 16) (o + 2 ^ 32) 0 []) (j.owner p true)

/-- The poisoned lines of a run, by place in it. -/
def State.badLines (s : State) (a n : Nat) : List Nat := (List.range (n / 64)).filter fun i => s.poisoned (a + 64 * i) 64

/-- The ranks other than the COLL's own, ascending. -/
def Cl.others (d : Cl) : List Nat := (List.range d.n).filter fun r => r ≠ d.rank

/-- A run sent to each other rank (R465): `from` and `to` give the source and the destination by rank. -/
def State.collSend (s : State) (p m : Nat) (j : Job) (src : Nat → Nat) (dst n : Nat) : State :=
  (clOf j.words).others.foldl (fun s r =>
    (s.mscRead (.cmd p j.id) [(src r, n)]).collWrite p m j (j.ranks.getD r 0) dst (s.read (src r) n) (s.badLines (src r) n)) s

/-- Each rank whose packets of the phase are acknowledged is sent what comes next: the tag after the data, the signal after the tag; once every
signal is sent, the wait of the phase starts (R465). -/
def State.collStep (s : State) (p : Nat) (id : Nat) : State :=
  match (s.plain p).jobs.find? fun j => j.id = id && j.coll && (j.phase = .arrive || j.phase = .second), s.owner p with
  | some j, some m =>
    if ! s.running then s
    else
      let d := clOf j.words
      let phase := if j.phase = .second then 1 else 0
      let step := fun (x : State × List Nat) (r : Nat) =>
        let dev := j.ranks.getD r 0
        let k := x.2.getD r 0
        if x.1.packetsTo p id dev then x
        else if k = 1 then
          (x.1.collWrite p m j dev (d.tags + 64 * (phase * d.n + d.rank)) (collTag (d.ev j.step) (x.1.ctx m).epoch.toNat d.rank phase) [],
            x.2.set r 2)
        else if k = 2 then (x.1.collSignal p m j dev d.arrive, x.2.set r 3)
        else x
      let (s, l) := d.others.foldl step (s, j.sent)
      let j := { j with sent := l }
      let s := s.setJob p j
      if ! j.moved && d.others.all fun r => l.getD r 0 = 3 then s.collWait p j else s
  | _, _ => s

/-- Every COLL goes on where it can. -/
def State.collSteps (s : State) : State :=
  (List.range 16).foldl (fun s p => (s.plain p).jobs.foldl (fun s j => s.collStep p j.id) s) s

/-- FREE is met, and phase 0 starts (R465); ALL_GATHER and ALL_TO_ALL copy their own shard. -/
def execCollFreeMet (p : Fin 16) (id : Nat) (s : State) : Result :=
  .next (match (s.plain p).jobs.find? fun j => j.id = id && j.phase = .free, s.owner p with
    | some j, some m =>
      if ! s.collMet j then s
      else
        let d := clOf j.words
        let src := fun r => if d.op = 2 then d.src else d.src + r * d.shard
        let dest := (if d.reduces then d.stage else d.dst) + d.rank * d.shard
        let reads := if d.reduces then d.others else List.range d.n
        match reads.findSome? (fun r => s.refused (some m) (src r) d.shard false),
              (if d.reduces then none else s.refused (some m) dest d.shard true) with
        | some code, _ => s.faultJob p j code
        | none, some code => s.faultJob p j code
        | none, none =>
          let bad := s.badLines (src d.rank) d.shard
          let own := s.read (src d.rank) d.shard
          let s := s.collSend p m j src dest d.shard
          let s := if d.reduces then s
            else ((s.mscRead (.cmd p id) [(src d.rank, d.shard)]).write (.cmd p id) (wholeBytes dest own) (bad.map fun i => dest / 64 + i)).addP p 23 bad.length
          (s.setJob p { j with phase := .arrive, moved := false, sent := List.replicate d.n 1 }).collStep p id
    | _, _ => s)

/-! ### Tags and the reduction (R466, R468) -/

/-- The class of a difference of event sequence numbers (R468, R483). -/
def seqClass (d : W32) : Nat :=
  if d = 0 then 0 else if d.toNat < 2 ^ 30 then 1 else if d.toNat > 0xC0000000 then 2 else 3

/-- The tags of a phase checked in ascending entry number (R468, R705): none, the code that stops the COLL, with the record of COLL_SEQ. -/
def State.checkTags (s : State) (m : Nat) (j : Job) (phase : Nat) : Option (Nat × Option Nat) :=
  let d := clOf j.words
  d.others.findSome? fun r =>
    let e := phase * d.n + r
    let a := d.tags + 64 * e
    match s.readFault m [(a, 64)] with
    | some f => some (f, none)
    | none =>
      let ws := wordsOf 3 (s.read a 12)
      if wordAt ws 0 = d.ev j.step && bits (wordAt ws 2) 0 0 = phase && bits (wordAt ws 1) 11 0 = r then none
      else some (collSeq, some (seqClass (wordAt ws 0 - d.ev j.step) * 2 ^ 30 + 2 ^ 29 + e % 4096))

/-- The tags of a phase read. -/
def State.readTags (s : State) (p : Nat) (j : Job) (phase : Nat) : State :=
  let d := clOf j.words
  s.mscRead (.cmd p j.id) (d.others.map fun r => (d.tags + 64 * (phase * d.n + r), 64))

/-- A COLL stops at a tag (R468). -/
def State.tagFault (s : State) (p m : Nat) (j : Job) (x : Nat × Option Nat) : State :=
  let s := match x.2 with
    | some w => s.setReg (0x70208 + 0x10 * m) (BitVec.ofNat 32 w)
    | none => s
  s.faultJob p j x.1

/-- Element `e` of a shard's bytes, widened (R69, R466). -/
def shardElem (fmt : Nat) (bs : Bytes) (e : Nat) : W32 :=
  let b := elemBits fmt
  toF32 (fdec (fmtOf fmt) (leNat ((bs.drop (e * b / 8)).take ((b + 14) / 8)) / 2 ^ (e * b % 8) % 2 ^ b))

/-- Codes packed as a shard. -/
def packCodes (fmt : Nat) : List Nat → Bytes
  | [] => []
  | [a] => leBytes (ceilDiv (elemBits fmt) 8) a
  | a :: b :: r => leBytes (elemBits fmt / 4) (a + b * 2 ^ elemBits fmt) ++ packCodes fmt r

/-- The reduction of the owner's shard, in ascending rank (R466). -/
def reduceShards (inFmt outFmt n : Nat) (shards : List Bytes) : Bytes :=
  packCodes outFmt ((List.range n).map fun e =>
    let acc := match shards.map fun b => shardElem inFmt b e with
      | [] => f32zero
      | c :: r => r.foldl (fun a x => plusZero (fadd a x)) (plusZero c)
    if outFmt = 0 then acc.toNat else rne (fmtOf outFmt) (f32 acc))

/-- The release signals, and SIG_OBJ (R465). -/
def State.collRelease (s : State) (p m : Nat) (j : Job) : State :=
  let d := clOf j.words
  let s := d.others.foldl (fun s r => s.collSignal p m j (j.ranks.getD r 0) d.free) s
  (if d.sig then s.addObj d.sigObj 1 else s).setJob p { j with phase := .last, moved := false }

/-- Every contribution has arrived (R465, R466): the tags are checked, the shard is reduced, and an ALL_REDUCE sends it on. -/
def execCollArriveMet (p : Fin 16) (id : Nat) (s : State) : Result :=
  .next (match (s.plain p).jobs.find? fun j => j.id = id && j.phase = .arrive, s.owner p with
    | some j, some m =>
      let d := clOf j.words
      if ! s.collMet j then s
      else match s.checkTags m j 0 with
      | some x => s.tagFault p m j x
      | none =>
        let s := s.readTags p j 0
        if ! d.reduces then s.collRelease p m j
        else
          let run := fun r => (if r = d.rank then d.src + r * d.shard else d.stage + r * d.shard, d.shard)
          let out := if d.op = 0 then d.dst + d.rank * d.outBytes else d.dst
          match s.readFault m ((List.range d.n).map run), s.refused (some m) out d.outBytes true with
          | some code, _ => s.faultJob p j code
          | none, some code => s.faultJob p j code
          | none, none =>
            let bs := reduceShards d.inFmt d.outFmt d.elems ((List.range d.n).map fun r => s.read (run r).1 d.shard)
            let s := s.mscRead (.cmd p id) ((List.range d.n).map run)
            let s := s.write (.cmd p id) (wholeBytes out bs)
            if d.op = 1 then s.collRelease p m j
            else match s.refused (some m) out d.outBytes false with
            | some code => s.faultJob p j code
            | none =>
              ((s.collSend p m j (fun _ => out) out d.outBytes).setJob p
                { j with phase := .second, moved := false, sent := List.replicate d.n 1 }).collStep p id
    | _, _ => s)

/-- Every shard of an ALL_REDUCE has arrived (R465). -/
def execCollPhase1Met (p : Fin 16) (id : Nat) (s : State) : Result :=
  .next (match (s.plain p).jobs.find? fun j => j.id = id && j.phase = .second, s.owner p with
    | some j, some m =>
      if ! s.collMet j then s
      else match s.checkTags m j 1 with
      | some x => s.tagFault p m j x
      | none => (s.readTags p j 1).collRelease p m j
    | _, _ => s)

/-- A COLL ends once its release signals are acknowledged and its writes applied (R471). -/
def execCollEnd (p : Fin 16) (id : Nat) (s : State) : Result :=
  .next (match (s.plain p).jobs.find? fun j => j.id = id && j.phase = .last with
    | some j => if ! s.running || s.packetsOut p id || s.writesWait p id then s else (s.endJob p id).jobBreak p j
    | none => s)

/-- The plain whose command a packet belongs to, or belonged to. -/
def PkOwner.plain? : PkOwner → Option Nat
  | .cmd p _ _ _ _ _ => some p
  | .gone p => some p
  | .ckpt => none

/-- The in-flight count of a context (R474): packets of a COLL that has stopped count until they are settled. -/
def State.inFlight (s : State) (m : Nat) : Nat :=
  ((s.plainsOf m).map fun p =>
    ((s.plain p).jobs.filter (·.coll)).length +
      (s.outst.filter fun o => (o.pk.ptype = 6 || o.pk.ptype = 7) && o.owner.plain? = some p).length).foldl (· + ·) 0

/-! ### The wait limit (R195, R197, R204, R233) -/

/-- The wait limit of the context in ms (R228). -/
def State.waitLimit (s : State) (m : Nat) : Nat := bits (s.reg (offSch m 8)) 31 16

/-- A fault SYNC_TIMEOUT of a plain (R204): it is recorded with the TAG of the command after the faulting one (R235); the context stays RUNNING. -/
def State.timeoutFault (s : State) (p m : Nat) (tag next : W32) (o : Nat) : State :=
  let s := s.logAdd logFault (some m) syncTimeout 1 p tag.toNat (s.ctx m).step.toNat o
  ((s.recordPlain p syncTimeout tag false).setReg (offPln p 0x10) next).event 0x05 m syncTimeout p tag

/-- The object of a COLL's wait that is behind its target. -/
def State.collWaits (s : State) (j : Job) : Option Nat :=
  match j.waitFor with
  | some (o, t) => if j.out || reached (s.obj o) t then none else some o
  | none => none

/-- The wait limit expires for the WAIT of a plain (`coll` none) or for the wait of its COLL `id`: only that plain stops (R197, R204, R465). A wait that
is met has not timed out (R195). -/
def execSyncTimeout (w : WaitObs) (s : State) : Result :=
  .next (
    let p := w.plain
    let x := s.plain p
    match s.owner p, w.coll with
    | some m, none =>
      if ! s.running || s.waitLimit m = 0 || x.pcc ≠ .waiting || reached (s.obj x.waitObj.toNat) x.target then s
      else
        let ws := x.fetched.getD []
        (s.setPlain p { x with pcc := .timedOut }).timeoutFault p m (hdrTag ws) (s.tagAt p (x.pos + descBytes (wordAt ws 0)) x.prologue) x.waitObj.toNat
    | some m, some id =>
      match (if ! s.running || s.waitLimit m = 0 then none else
          (x.jobs.find? fun j => j.id = id).bind fun j => (s.collWaits j).map fun o => (j, o)) with
      | some (j, o) =>
        let st := if x.pcc = .issuing then PccState.collOut else if x.pcc = .waiting then .timedOut else x.pcc
        let s := s.setJob p { j with out := true }
        (s.setPlain p { s.plain p with pcc := st }).timeoutFault p m (hdrTag j.words) (s.tagAt p j.pos j.pro) o
      | none => s
    | none, _ => s)

/-- The waits of COLLs that timed out start again, the oldest first (R195, R465). -/
def State.resumeColls (s : State) (p : Nat) : State :=
  ((s.plain p).jobs.filter (·.out)).foldl (fun s j =>
    if (s.plain p).jobs.any fun k => k.id = j.id then s.collWait p { j with out := false } else s) s

/-- A plain that timed out starts its waits again as new waits (R195, R233). -/
def State.restartPlain (s : State) (p m : Nat) : State :=
  let s := (s.setPlain p { s.plain p with resume := false }).resumeColls p
  let x := s.plain p
  if x.pcc = .timedOut then s.startWait p m (x.fetched.getD [])
  else if x.pcc = .collOut then s.setPlain p { x with pcc := .issuing }
  else s

/-- RESUME of a plain that timed out; otherwise it is ignored (R233). While the watershed holds the device the plain is frozen, and goes on at the resume
(R612, R615). -/
def State.resumePlain (s : State) (p : Nat) : State :=
  let x := s.plain p
  match s.owner p with
  | some m =>
    if ! (x.pcc = .timedOut || x.pcc = .collOut) then s
    else if s.running then s.restartPlain p m
    else s.setPlain p { x with resume := true }
  | none => s

/-- A write of PLN_CTRL with RESUME = 1 (R233, R492). -/
def execPlnCtrlResume (v : Nat) (p : Fin 16) (s : State) : Result :=
  .next (s.regGate (16 ≤ v || s.owner p = some v) v (offPln p 4) 1 fun s => s.resumePlain p)

end Sys2Proof.Machine
end

