-- ==== Sys2Proof/Machine/Win.lean ====
section
/-! DEFINITION. The window onto device memory (R514 to R520). -/

namespace Sys2Proof.Machine

/-- The size of the window, and WIN_BASE (R516). -/
def winBytes : Nat := 0x20000000
def State.winBase (s : State) : Nat := s.pairVal 0x18008

/-- Whether the window is served with coherence: CXL operation with CXL.mem enabled (R490, R516). -/
def State.coherent (s : State) : Bool := s.cxl && bit (s.reg 0x10004) 28

/-- Bias page `k` is DEVICE (R519, R535). -/
def State.biasDevice (s : State) (k : Nat) : Bool := bit (s.reg (0x18020 + 4 * (k / 32))) (k % 32)

/-- The bias of a page set. -/
def State.setBias (s : State) (k : Nat) (d : Bool) : State :=
  s.setBits (0x18020 + 4 * (k / 32)) (BitVec.ofNat 32 (2 ^ (k % 32))) (if d then 0xFFFFFFFF#32 else 0)

/-- A host access flips the DEVICE pages it touches to SHARED in BIAS mode (R519). -/
def State.flipBias (s : State) (off len : Nat) : State :=
  if s.coherent && bit (s.reg 0x18000) 1 then
    let a := off / 2097152
    (List.range ((off + len - 1) / 2097152 + 1 - a)).foldl (fun s i =>
      if s.biasDevice (a + i) then (s.setBias (a + i) false).bump 0x18010 else s) s
  else s

/-- An access with EN = 0 recorded (R518, R606); `value` is the first word written. -/
def State.winDiscard (s : State) (off value : Nat) : State := s.discard 18 off (BitVec.ofNat 32 value)

/-- A host access served (R514, R518): a read is answered once the host writes before it are applied. -/
def State.serveWin (s : State) : WinAcc → State
  | .read off len =>
    let (src, s) := if ! (s.ready && bit (s.reg 0x18000) 0) then (WinSrc.zero, s.winDiscard off 0)
      else (if ddrBase ≤ s.winBase + off && s.ddrFailed then .lost else .mem (s.winBase + off), s.flipBias off len)
    { s with win := { s.win with reads := s.win.reads ++ [(off, src, len)] } }.answerWin
  | .write off data =>
    if ! (s.ready && bit (s.reg 0x18000) 0) then s.winDiscard off (leNat (data.take 4))
    else
      let a := s.winBase + off
      let s := s.flipBias off data.length
      if ddrBase ≤ a && s.ddrFailed then s else s.write .host (wholeBytes a data)

/-- Whether the window can be reached on a path (R516, R523): BAR4 while the function answers memory requests; the HDM decoder while CXL.mem is enabled
and the decoder committed (log entry 134). -/
def State.winReached (s : State) (path : WinPath) : Bool :=
  match path with
  | .bar4 => s.memOn
  | .hdm => s.coherent && bit (s.reg 0xD1204) 1 && bit (s.reg 0xD1220) 10

/-- A host access arrives: BAR4 answers with Unsupported Request while CXL.mem is enabled (R490); while the window moves the access waits (R517); one
that leaves the window is none. -/
def State.winAccess (s : State) (path : WinPath) (off len : Nat) (x : WinAcc) : State :=
  if len = 0 || winBytes < off + len || ! s.winReached path then s
  else if path = .bar4 && s.coherent then { s with hostTx := s.hostTx ++ [.unsupported off] }
  else if s.win.moving.isSome then { s with win := { s.win with wait := s.win.wait ++ [x] } }
  else s.serveWin x

/-- A host read through the window (R514). -/
def execWinRead (w : WinAddr) (len : Nat) (s : State) : Result := .next (s.winAccess w.path w.off len (.read w.off len))

/-- A host write through the window (R518). -/
def execWinWrite (w : WinAddr) (data : Bytes) (s : State) : Result :=
  .next (s.winAccess w.path w.off data.length (.write w.off data))

/-- A new base is in force, and the accesses that waited are served (R517). -/
def State.winSwitch (s : State) (base : Nat) : State :=
  let w := s.win.wait
  w.foldl (fun s x => s.serveWin x) { (s.setPairVal 0x18008 base).setReg 0x18004 0 with win := { s.win with moving := none, wait := [] } }

/-- A write of WIN_BASE_HI (R516, R517): the window moves, in coherent operation after a back-invalidation. -/
def State.winMove (s : State) (v : Nat) (hi : W32) : State :=
  let base := (s.heldLo 0x18008 &&& 0xFFE00000#32).toNat + bits hi 9 0 * 2 ^ 32
  if ! s.mapped base winBytes then s.discard v 0x1800C hi
  else
    let s := { s with held := storePut (fun _ => none) s.held 0x18008 none }
    if s.coherent then
      { s.setReg 0x18004 1 with win := { s.win with moving := some base }, hostTx := s.hostTx ++ [.backInvalidate 0 winBytes] }
    else s.winSwitch base

/-- WIN_BASE_HI is written (R517). -/
def execWinMove (hi : W32) (s : State) : Result := .next (s.regGate true 16 0x1800C hi fun s => s.winMove 16 hi)

/-- A write of WIN_BIAS_w (R519): a bit that goes to 1 waits for a back-invalidation in coherent operation. -/
def State.winBias (s : State) (w : Nat) (value : W32) : State :=
  let off := 0x18020 + 4 * w
  let new := (List.range 32).filter fun i => bit value i && ! bit (s.reg off) i
  let s := { s.setReg off (s.reg off &&& value) with win := { s.win with pages := s.win.pages.filter fun k => k / 32 ≠ w || bit value (k % 32) } }
  new.foldl (fun s i =>
    let k := 32 * w + i
    if ! s.coherent then s.setBias k true
    else if s.win.pages.contains k then s
    else { s with win := { s.win with pages := s.win.pages ++ [k] }, hostTx := s.hostTx ++ [.backInvalidate (2097152 * k) 2097152] }) s

/-- A WIN_BIAS register is written (R519). -/
def execWinBiasSet (w : Fin 8) (value : W32) (s : State) : Result :=
  .next (s.regGate true 16 (0x18020 + 4 * w.val) value fun s => s.winBias w value)

/-- Dirty lines that the host gives back, written where the window shows them (R517, R519): those of offsets `lo` up to `hi`. -/
def State.writeDirty (s : State) (lo hi : Nat) (dirty : List (Nat × Bytes)) : State :=
  dirty.foldl (fun s d =>
    let a := s.winBase + d.1
    if d.1 < lo || hi < d.1 + d.2.length || (ddrBase ≤ a && s.ddrFailed) then s else s.write .host (wholeBytes a d.2)) s

/-- The host answers a back-invalidation (R517, R519), and its dirty lines are written first; a device access that waited for a line changes nothing
more, since snoops change timing only. -/
def execBackInvalidationDone (b : BackInv) (s : State) : Result :=
  .next (match b with
    | .move dirty => match s.win.moving with
      | some base => (s.writeDirty 0 winBytes dirty).winSwitch base
      | none => s
    | .biasPage k dirty =>
      if s.win.pages.contains k then
        let s := s.writeDirty (2097152 * k) (2097152 * (k + 1)) dirty
        { s.setBias k true with win := { s.win with pages := s.win.pages.filter fun x => x ≠ k } }
      else s
    | .line _ => s)

end Sys2Proof.Machine
end

