-- ==== Sys2Proof/Machine/Read.lean ====
section
/-! DEFINITION. What registers read as, who may reach them, and the captures of counter sets and log entries (R11 to R14, R226 to R239, R372 to
R375, R428 to R433, R480 to R486, R491 to R493, R533 to R538, R588 to R601, R609, R610, R625 to R627, R631, R668, R669, R698, R699). -/

namespace Sys2Proof.Machine

/-! ### Who reaches what (R491 to R493, R601, R610, R631) -/

/-- Whether context view `v` reaches a register (R492, R601, R610). -/
def State.viewReaches (s : State) (v off : Nat) : Bool :=
  if 0x100000 ≤ off then s.owner ((off - 0x100000) / 0x10000) = some v
  else if 0x58000 + 0x100 * v ≤ off && off < 0x58100 + 0x100 * v then true
  else if 0x48000 ≤ off && off < 0x49000 then s.owner ((off - 0x48000) / 0x100) = some v
  else if 0x6800C ≤ off && off < 0x68024 then true
  else if 0x70200 + 0x10 * v ≤ off && off < 0x7020C + 0x10 * v then true
  else if offHif v 0 ≤ off && off < offHif v 0x40 then true
  else if off = 0xA0008 || (0xA0080 ≤ off && off < 0xA0100) || (0xA0200 + 0x10 * v ≤ off && off < 0xA0210 + 0x10 * v) then true
  else off = 0xC8008 || (0xC8020 ≤ off && off < 0xC8040) || off = 0xC8100 + 4 * v

/-- Whether a requester may access a register: all of them but for the views of contexts. -/
def State.mayAccess (s : State) (v off : Nat) : Bool := 16 ≤ v || s.viewReaches v off

/-- The reads served before READY (R631). -/
def earlyReads : List Nat := [0xB0000, 0xB0004, 0xA8000, 0xA8004, 0xA800C, 0xA8024, 0xA8028, 0xA8018, 0xA801C, 0xA8020]

/-- The registers that show the answers of the mailbox, whose first queries are served before READY (R631, R659). -/
def mailboxShown (off : Nat) : Bool := off = 0xB0010 || off = 0xB0014 || (0xB0040 ≤ off && off < 0xB0150)

/-! ### Registers of the security block (R668) -/

/-- Whether P0 has read the fuses. -/
def State.fusesRead (s : State) : Bool := s.phase ≠ 0

/-- A value that the fuses set in P0. -/
def State.fused (s : State) (w : Nat) : W32 := if s.fusesRead then BitVec.ofNat 32 w else 0

/-- SEC_STATUS (R668). -/
def State.secStatus (s : State) : W32 :=
  s.fused (b2n s.sec.provisioned * 2 ^ 31) ||| BitVec.ofNat 32 (b2n (s.sec.idk && s.sec.ak.isSome) * 2 ^ 30 + b2n s.sec.unlocked * 2 ^ 29 +
    s.mgt.sessions.length % 8 * 2 ^ 16)

/-- The image in a slot of a part (R634): slots are hub A, hub B, plain A, plain B. -/
def slotIndex (plain b : Bool) : Nat := 2 * b2n plain + b2n b
def Sec.image (x : Sec) (plain b : Bool) : Option FwImage := (x.slots.getD (slotIndex plain b) none)

/-- The slot of a part that runs. -/
def Sec.run (x : Sec) (plain : Bool) : Option Bool := if plain then x.plainRun else x.hubRun

/-- The version of a part that runs (R636, R668). -/
def Sec.version (x : Sec) (plain : Bool) : BitVec 16 :=
  match x.run plain with
  | some b => match x.image plain b with
    | some i => i.ver
    | none => 0
  | none => 0

/-- The staged slot of a part (R641). -/
def Sec.staged (x : Sec) (plain : Bool) : Option Bool := if plain then x.stagedPlain else x.stagedHub

/-- SEC_BOOT (R668). -/
def State.secBoot (s : State) : W32 :=
  let x := s.sec
  let any := x.stagedHub.isSome || x.stagedPlain.isSome
  BitVec.ofNat 32 (b2n (x.hubRun = some true) * 2 ^ 31 + b2n (x.plainRun = some true) * 2 ^ 30 + b2n any * 2 ^ 29 +
    b2n (any && (if (x.staged x.lastPlain).isSome then x.lastPlain else ! x.lastPlain)) * 2 ^ 28)

/-! ### Registers that show other state -/

/-- The key of a requester's own copy of a register (R493): the management core shares that of the privileged map. -/
def viewKey (v off : Nat) : Nat := min v 16 * 2 ^ 21 + off

/-- PLN_STATUS (R232). -/
def State.plnStatus (s : State) (p : Nat) : W32 :=
  let x := s.plain p
  BitVec.ofNat 32 (bits (s.reg (0x59000 + 4 * p)) 3 0 * 2 ^ 28 + b2n (x.pcc = .waiting) * 2 ^ 27 + x.pcc.code * 2 ^ 14 + x.waitObj.toNat)

/-- The handle that a requester's CMP_TABLE_SEL selects, where the requester may see it (R374, R492). -/
def State.shownHandle (s : State) (v : Nat) : Option Nat :=
  let h := bits (storeGet zeroWord s.views (viewKey v 0x6800C)) 7 0
  if 16 ≤ v || s.ownsHandle v h then some h else none

/-- CMP_TABLE_GEN (R374). -/
def State.tableGen (s : State) (v : Nat) : W32 :=
  match s.shownHandle v with
  | none => 0
  | some h =>
    let live := (s.slots.filter fun x => x.handle = h).length
    let cur := match s.currentSlot h with
      | some x => 2 ^ 31 + b2n x.c12 * 2 ^ 30
      | none => 0
    BitVec.ofNat 32 (cur + live % 32 * 2 ^ 25 + s.handleGen h * 2 ^ 16)

/-- CMP_TABLE_ENTRYk (R375). -/
def State.tableEntry (s : State) (v k : Nat) : W32 :=
  match s.shownHandle v with
  | none => 0
  | some h => match s.currentSlot h with
    | some x => BitVec.ofNat 32 (leNat ((x.table.drop (4 * k)).take 4))
    | none => 0

/-- CKP_STATUS (R588). -/
def State.ckpStatus (s : State) : W32 :=
  let st := match s.ckp.phase with
    | .idle => 0
    | .stop => 1
    | .find => 3
    | .load => 3
    | _ => 2
  BitVec.ofNat 32 (st * 2 ^ 30 + b2n (s.ckp.phase = .prepared) * 2 ^ 29 + (if s.ckp.phase = .idle then 0 else s.ckp.ctx % 16 * 2 ^ 16)) |||
    (s.reg 0x88000 &&& 0x10000000#32)

/-- The code of the watershed's state (R626). -/
def DbgState.code : DbgState → Nat
  | .running => 0
  | .stopping => 1
  | .scanning => 2
  | .stopped => 3

/-- DBG_STATUS (R626). -/
def State.dbgStatus (s : State) : W32 := (s.reg 0x98004 &&& 0x3FFFFFFF#32) ||| BitVec.ofNat 32 (s.dbg.code * 2 ^ 30)

/-- Slots of the table store that are FREE (R346, R373). -/
def State.slotsFree (s : State) : Nat := 384 - s.slots.length

/-- A global counter (R600): the bytes of memory and of the links are counted where they pass (log entry 21). -/
def State.glbVal (s : State) (k : Nat) : Nat :=
  let kib := fun n => min (2 ^ 64 - 1) (n / 1024)
  let links := fun (f : Link → Nat) => ((List.range 64).map fun n => f (s.link n)).sum
  match k with
  | 8 => kib (storeGet zeroNat s.msc.rd 0)
  | 9 => kib (storeGet zeroNat s.msc.wr 0)
  | 10 => kib (storeGet zeroNat s.msc.rd 1)
  | 11 => kib (storeGet zeroNat s.msc.wr 1)
  | 12 => kib (links fun l => l.txBytes)
  | 13 => kib (links fun l => l.rxBytes)
  | k => s.glb.getD k 0
def State.glbWord (s : State) (k : Nat) (hi : Bool) : W32 := BitVec.ofNat 32 (if hi then s.glbVal k / 2 ^ 32 else s.glbVal k)

/-- Every global counter cleared (R600). -/
def State.glbClear (s : State) : State :=
  (List.range 64).foldl (fun (s : State) n => s.setLink n { s.link n with txBytes := 0, rxBytes := 0 })
    { s with glb := List.replicate 16 0, msc := { s.msc with rd := [], wr := [] } }

/-- MGT_PROGRESS (R663, R669): how far a long operation has come depends on timing, and is a free value. -/
def State.progress (s : State) : W32 := if s.mgt.long.isSome then BitVec.ofNat 32 ((Config.freeWord s.free).toNat % 101) else 0

/-- What a register shows, for a requester that reaches it. -/
def State.shown (s : State) (v off : Nat) : W32 :=
  match regRow off with
  | none => 0
  | some r =>
    let i := r.index off
    let c := s.ctx i
    let x := s.pair i
    match r.kind with
    | .accState => BitVec.ofNat 32 (storeGet zeroNat s.accOpen i)
    | .basinState => BitVec.ofNat 32 (storeGet zeroNat s.basinOpen i >>> (32 * ((r.base - 0x100008) / 4)))
    | .schStatus => BitVec.ofNat 32 (c.runTag.toNat * 2 ^ 16 + c.plain.toNat * 2 ^ 12 + c.st.code)
    | .schCtrl => BitVec.ofNat 32 (2 * b2n c.pause)
    | .schStep => c.step
    | .schSeedLo => c.seed.setWidth 32
    | .schSeedHi => (c.seed >>> 32).setWidth 32
    | .plnStatus => s.plnStatus i
    | .plnCtrl => 0
    | .synValue => s.obj (bits (s.reg 0x50000) 13 0)
    | .cmpFree => BitVec.ofNat 32 s.slotsFree
    | .cmpGen => s.tableGen v
    | .cmpEntry => s.tableEntry v i
    | .select => storeGet zeroWord s.views (viewKey v off)
    | .cntSel => storeGet zeroWord s.views (viewKey v off)
    | .logSel => storeGet zeroWord s.views (viewKey v off)
    | .cowFree => BitVec.ofNat 32 ((s.reg 0x20038).toNat - s.cow.pool.length)
    | .timing => if (s.link i).vc0 then Config.freeWord s.free else 0
    | .mscLooks => storeGet zeroWord s.msc.looks i
    | .mscHits => storeGet zeroWord s.msc.hits i
    | .mscDirty => BitVec.ofNat 32 (s.msc.dirtyLines fun e => homeOf (e.line * 2048) = i)
    | .progress => s.progress
    | .lnkRoute => s.route (bits (s.reg 0x7000C) 11 0)
    | .lnkEpoch => BitVec.ofNat 32 (b2n c.pending.isSome * 2 ^ 31 + b2n c.busy * 2 ^ 30 + c.epoch.toNat)
    | .lnkReshard => 0
    | .hifCtrl => BitVec.ofNat 32 (b2n x.en)
    | .hifStatus => BitVec.ofNat 32 (x.st.code * 2 ^ 30 + x.code.toNat)
    | .hifSqHead => x.sqHead
    | .hifCqTail => x.cqTail
    | .hifOvf => BitVec.ofNat 32 (x.lost.toNat * 2 ^ 16 + x.ovf.length)
    | .ckpStatus => s.ckpStatus
    | .dbgStatus => s.dbgStatus
    | .cntRec => wordAt (storeGet (fun _ => []) s.cntRec (min v 16)) i
    | .glbLo => s.glbWord i false
    | .glbHi => s.glbWord i true
    | .secStatus => s.secStatus
    | .secPolicy => s.fused (b2n s.sec.eraseAll)
    | .secBoot => s.secBoot
    | .secSvn => s.fused (s.sec.svnHub * 256 + s.sec.svnPlain)
    | .serialLo => s.fused (s.sec.serial.toNat % 2 ^ 32)
    | .serialHi => s.fused (s.sec.serial.toNat / 2 ^ 32)
    | .fwHub => (s.sec.version false).setWidth 32
    | .fwPlain => (s.sec.version true).setWidth 32
    | .unlockFails => BitVec.ofNat 32 s.sec.fails
    | .timeLo => s.time.setWidth 32
    | .timeHi => (s.time >>> 32).setWidth 32
    | .logHead => if 16 ≤ v then s.logHead else 0
    | .logEntry => wordAt (storeGet (fun _ => []) s.logRec (min v 16)) i
    | _ => s.reg off

/-- Whether a register shows a free value: how far a long operation is, and the cycles that VC0 packets of a link have waited, once it has sent one. -/
def State.showsFree (s : State) (off : Nat) : Bool :=
  match regRow off with
  | none => false
  | some r => match r.kind with
    | .timing => (s.link (r.index off)).vc0
    | .progress => s.mgt.long.isSome
    | _ => false

/-- An aligned read by a requester, and the state after it (R8, R13, R491, R492, R631): a _LO read captures the _HI half, which the next _HI read of
the same requester returns. -/
def State.readReg (s : State) (v off : Nat) : W32 × State :=
  if ! s.mayAccess v off || ! (s.ready || (16 ≤ v && (earlyReads.contains off || mailboxShown off))) then (0, s)
  else match regRow off with
  | none => (0, s)
  | some r =>
    let d := { s with free := s.free + b2n (s.showsFree off) }
    match r.half with
    | .single => (s.shown v off, d)
    | .lo =>
      let h := d.shown v (off + 4)
      (s.shown v off, { d with capt := storePut (fun _ => none) d.capt (v * 2 ^ 21 + off) (some h) })
    | .hi =>
      match storeGet (fun _ => none) s.capt (v * 2 ^ 21 + off - 4) with
      | some h => (h, { s with capt := storePut (fun _ => none) s.capt (v * 2 ^ 21 + off - 4) none })
      | none => (s.shown v off, d)

/-- Whether an access of the register map arrives at the device: from the management core, or through BARs that answer (R523). -/
def State.mapOn (s : State) (v : Nat) : Bool := s.board.power && s.reaches v

/-- A register is read: the _LO half of a pair captures its _HI half (R13), the _HI half shows what was captured (R12, R13), any other register shows
itself (R8, R14). -/
def execPairLoRead (v off : Nat) (s : State) : Result :=
  .next (
    if ! s.mapOn v || off % 4 ≠ 0 then s
    else
      let (w, s) := s.readReg v off
      { s with hostTx := s.hostTx ++ [.regData v off w] })

/-- An access that is not an aligned access of 32 bits (R11, R606). -/
def execRegMisaligned (v off size : Nat) (write : Bool) (s : State) : Result :=
  .next (
    if ! s.mapOn v || (size = 4 && off % 4 = 0) then s
    else
      let s := s.logAdd logMisaligned (if v < 16 then some v else none) 0 0 0 off size v
      if write then s else { s with hostTx := s.hostTx ++ [.regData v off 0] })

/-! ### Captures (R597 to R599, R609, R610) -/

/-- The running command of a path in a core. -/
def State.runOn (s : State) (p pos path : Nat) : Option Words :=
  ((s.plain p).issued.find? fun i => pathOf (hdrType i.words) = path && i.runs.any fun r => r.pos = pos && r.st ≠ .queued).map (·.words)

/-- The record of a live set (R597): while its command runs, cycles and counters that its record lists are free values. -/
def State.liveRecord (s : State) (unit path : Nat) : Words × State :=
  let k := unit * 4 + path
  let shadow := storeGet zeroRec s.cntShadow k
  if path = 3 then
    match s.owner unit with
    | some m =>
      if (s.ctx m).st = .running then
        let live := storeGet zeroRec s.cntLive k
        ([(s.ctx m).step, 0, BitVec.ofNat 32 (unit * 2 ^ 20 + 3 * 2 ^ 14 + 2 ^ 13), wordAt shadow 3, s.time.setWidth 32,
          (s.time >>> 32).setWidth 32, wordAt live 6] ++ stallWords s.free 3 ++ live.drop 20, { s with free := s.free + 8 })
      else (shadow, s)
    | none => (shadow, s)
  else match s.runOn (unit / 16) (unit % 16) path with
  | some ws => (s.recHead (unit / 16) (unit % 16) ws true false (wordAt shadow 3) ++ stallWords s.free path ++ openCounters (s.free + 14) (hdrType ws), { s with free := s.free + 26 })
  | none => (shadow, s)

/-- A write of CNT_SEL captures a set for its requester (R597 to R599, R601, R625). -/
def State.captureCnt (s : State) (v : Nat) (value : W32) : State :=
  let path := bits value 9 8
  let unit := bits value 7 0
  let named := path ≠ 3 || unit < 16
  let plain := if path = 3 then unit else unit / 16
  let s := { s with views := storePut zeroWord s.views (viewKey v 0xA0008) (value &&& 0x800003FF#32) }
  let (r, s) := if ! (named && (16 ≤ v || s.owner plain = some v)) then ([], s)
    else if bit value 31 then (storeGet zeroRec s.cntShadow (unit * 4 + path), s)
    else s.liveRecord unit path
  { s with cntRec := storePut (fun _ => []) s.cntRec (min v 16) r }

/-- CNT_SEL is written (R597). -/
def execCntSelCapture (v : Nat) (value : W32) (s : State) : Result :=
  .next (s.regGate true v 0xA0008 value fun s => s.captureCnt v value)

/-- GLB_CLEAR is written (R600, R625). -/
def execCntGlbClear (s : State) : Result := .next (s.regGate true 16 0xA0004 1 fun s => s.glbClear)

/-- A write of LOG_SEL captures a log entry for its requester (R609, R610). -/
def State.captureLog (s : State) (v : Nat) (seq : W32) : State :=
  let d := (s.logHead - seq).toNat
  let e := if 1 ≤ d && d ≤ 16384 then s.log.getD (d - 1) [] else []
  let gone := 16384 < d && d < 2 ^ 31
  let ahead := (seq - s.logHead).toNat < 2 ^ 31
  let mine := bit (wordAt e 3) 19 && bits (wordAt e 3) 23 20 = v
  let flags := if 16 ≤ v then BitVec.ofNat 32 (b2n gone * 2 ^ 31 + b2n ahead * 2 ^ 30) else 0
  { s with views := storePut zeroWord s.views (viewKey v 0xC8008) flags,
           logRec := storePut (fun _ => []) s.logRec (min v 16) (if 16 ≤ v || mine then e else []) }

/-- LOG_SEL is written (R609). -/
def execLogSelCapture (v : Nat) (seq : W32) (s : State) : Result :=
  .next (s.regGate true v 0xC8008 seq fun s => s.captureLog v seq)

end Sys2Proof.Machine
end

