-- ==== Sys2Proof/Machine/Dbg.lean ====
section
/-! DEFINITION. Software stops, resume and scan-out of the watershed (R611 to R618, R622, R623, R626). -/

namespace Sys2Proof.Machine

/-- CTX_THAWED (R623). -/
def ctxThawed : Nat := 0x22

/-- STOP is written (R611). -/
def execDbgCtrlStop (s : State) : Result := .next (s.regGate true 16 0x98000 1 fun s => s.freeze 1 0)

/-- Plains whose RESUME waited for the watershed go on (R612, R615). -/
def State.resumePlains (s : State) : State :=
  (List.range 16).foldl (fun s p =>
    match s.owner p with
    | some m => if s.running && (s.plain p).resume then s.restartPlain p m else s
    | none => s) s

/-- Resume (R615, R618): accepted in STOPPED after a resumable stop, else logged. -/
def State.resume (s : State) (v : Nat) (value : W32 := 2) : State :=
  if s.dbg = .stopped && bit (s.reg 0x98004) 29 then
    let cause := bits (s.reg 0x98004) 23 16
    let dev := bits (s.reg 0x98004) 11 0
    let s := { s.setBits 0x98004 0x20000000#32 0 with dbg := .running }.logAdd logWatershed none 0 0 0 cause dev 1
    let ms := s.frozen
    (ms.foldl (fun (s : State) (m : Nat) => s.event ctxThawed m 0 0 0 [BitVec.ofNat 32 cause]) { s with frozen := [] }).resumePlains.collSteps
  else s.discard v 0x98000 value

/-- RESUME is written (R618). -/
def execDbgCtrlResume (s : State) : Result := .next (s.regGate true 16 0x98000 2 fun s => s.resume 16)

/-! ### Scan-out (R622) -/

/-- A record of `n` words with runs of words at their places, zero elsewhere. -/
def placeWords (n : Nat) (l : List (Nat × Words)) : Words :=
  (List.range n).map fun i => (l.findSome? fun x => if x.1 ≤ i then x.2[i - x.1]? else none).getD 0

/-- The record of a plain in the debug buffer. -/
def State.scanPlain (s : State) (p : Nat) : Bytes × State :=
  let dmas := (s.plain p).jobs.filter fun j => ! j.coll && j.waits
  let (live, s) := s.liveRecord p 3
  (bytesOf (placeWords 1024 [(0, [s.plnStatus p, s.reg (offPln p 0x10), s.reg (offPln p 0x14), s.reg (offPln p 8),
    BitVec.ofNat 32 dmas.length] ++ (dmas.take 16).map fun j => hdrTag j.words), (32, live)]), s)

/-- The record of a core in the debug buffer; the k-steps done depend on timing. -/
def State.scanCore (s : State) (c : Nat) : Bytes × State :=
  let p := c / 16
  let pos := c % 16
  let run := fun k => s.runOn p pos k
  let tag := fun k => match run k with
    | some ws => hdrTag ws
    | none => 0
  let queued := (s.plain p).issued.filter fun i => i.runs.any fun r => r.pos = pos && r.st = .queued
  let (steps, s') := if (run 0).isSome then s.draw else (0, s)
  let (a, s') := s'.liveRecord c 0
  let (d, s') := s'.liveRecord c 1
  let (f, s') := s'.liveRecord c 2
  let holds := ((List.range 32).map fun t => s.hold false c t) ++ (List.range 256).map fun t => s.hold true c t
  (bytesOf (placeWords 1024 [
    (0, [tag 0, tag 1, tag 2, BitVec.ofNat 32 (b2n (run 0).isSome + b2n (run 1).isSome * 2 + b2n (run 2).isSome * 4), steps]),
    (8, (queued.take 8).map fun i => hdrTag i.words), (16, [BitVec.ofNat 32 queued.length]),
    (32, (List.range 9).map fun k => s.shown 16 (offCore c (4 + 4 * k))),
    (64, holds.flatMap fun h => wordsOf 2 (leBytes 8 h)), (640, a ++ d ++ f)]), s')

/-- The bytes of a memory of a core: 0 Field, 1 accumulator, 2 Basin. -/
def memBytes (k : Nat) : Nat := if k = 0 then 6291456 else if k = 1 then 524288 else 4194304
def State.scanMem (s : State) (c k : Nat) : Bytes :=
  if k = 0 then s.fieldRead c 0 6291456
  else (List.range (if k = 1 then 32 else 256)).flatMap fun t => (List.range 4096).flatMap fun e => leBytes 4 (s.tileElem (k = 2) c t e).toNat

/-- The memories that a scan selects, in their order. -/
def State.scanList (s : State) : List (Nat × Nat) :=
  ((List.range 256).filter fun c => bit (s.reg (0x98020 + 4 * (c / 32))) (c % 32)).flatMap fun c =>
    ((List.range 3).filter fun k => bit (s.reg 0x9801C) k).map fun k => (c, k)

/-- The memories that fit in `room` bytes. -/
def scanFit : List (Nat × Nat) → Nat → List (Nat × Nat)
  | [], _ => []
  | x :: r, room => if memBytes x.2 ≤ room then x :: scanFit r (room - memBytes x.2) else []

/-- The fixed part of the debug buffer. -/
def scanFixed : Nat := 1118208

/-- The header of the debug buffer. -/
def State.scanHeader (s : State) (total : Nat) (trunc : Bool) : Words :=
  let st := s.reg 0x98004
  let w := fun n => BitVec.ofNat 32 n
  placeWords 1024 [(0, [0x48535457#32, 1, w (bits st 23 16 + b2n (bit st 29) * 256 + b2n trunc * 512), w s.devId, s.reg 0x98050, s.reg 0x98054,
    w total, w (total / 2 ^ 32)]), (8, (List.range 8).map fun i => s.reg (0x98020 + 4 * i)), (16, [s.reg 0x9801C]),
    (32, (List.range 16).map fun m => (s.ctx m).step), (48, (List.range 16).map fun m => w (s.ctx m).st.code)]

/-- Runs of bytes written one after the other from `a` on. -/
def State.writeRuns (s : State) (f : State → Nat → Bytes × State) (a : Nat) : List Nat → State
  | [] => s
  | i :: r =>
    let (bs, s) := f s i
    (s.write .other (wholeBytes a bs)).writeRuns f (a + bs.length) r

/-- The debug buffer written. -/
def State.scanOut (s : State) : State :=
  let room := (s.reg 0x98018).toNat * 2097152
  let base := s.pairVal 0x98010
  let mems := scanFit s.scanList (room - scanFixed)
  let total := scanFixed + (mems.map fun x => memBytes x.2).sum
  if room = 0 || (s.refused none base total true).isSome then s
  else
    let trunc := mems.length < s.scanList.length
    let s := s.setBits 0x98004 0x10000000#32 (if trunc then 0x10000000#32 else 0)
    let s := s.write .other (wholeBytes base (bytesOf (s.scanHeader total trunc)))
    let s := s.writeRuns (fun s p => s.scanPlain p) (base + 4096) (List.range 16)
    let s := s.writeRuns (fun s c => s.scanCore c) (base + 69632) (List.range 256)
    s.writeRuns (fun s i => let x := mems.getD i (0, 0); (s.scanMem x.1 x.2, s)) (base + scanFixed) (List.range mems.length)

/-- Every unit has halted and the debug buffer is written (R617, R622). -/
def execScanOutDone (s : State) : Result :=
  .next (if s.dbg = .scanning then { s.scanOut with dbg := .stopped }.frozenEvents (bits (s.reg 0x98004) 23 16) else s)

end Sys2Proof.Machine
end

