-- ==== Sys2Proof/Machine/Eth.lean ====
section
/-! DEFINITION. The Ethernet ports: queue pairs, memory regions, RDMA, congestion and flow control (R524 to R531, R537, R538). -/

namespace Sys2Proof.Machine

/-- The transfers of a queue pair that are not whole fail (R531); one of the checkpoint engine fails its tier. -/
def State.dropXfers (s : State) (q : Nat) : State :=
  let x := s.qp q
  let hit := x.xfers.any fun t => t.pair = none && ! t.failed
  let rest := (x.xfers.filter fun t => t.pair ≠ none).map fun t => { t with failed := t.failed || t.done < t.bytes }
  let s := s.setQp q { x with xfers := rest, retries := 0 }
  if hit then s.ckpFail ckpTier else s

/-- A queue pair enters ERROR (R526, R528, R531). -/
def State.qpError (s : State) (q : Nat) : State := (s.setQpState q 2).dropXfers q

/-- The oldest request that is not answered is sent again, at most seven times (R525). -/
def State.retryQp (s : State) (q : Nat) : State :=
  let x := s.qp q
  match x.xfers.find? fun t => t.done < t.bytes && (t.pair = none || ! t.failed) with
  | none => s
  | some t =>
    if s.qpState q ≠ 1 then s
    else if x.retries < 7 then (s.setQp q { x with retries := x.retries + 1 }).sendXfer q t
    else s.qpError q

/-- The 4 ms of the local ACK timeout pass (R525). -/
def execQpAckTimeout (q : Fin 512) (s : State) : Result := .next (s.retryQp q)

/-- An answer to the oldest transfer of a queue pair (R525, R531): read data are written, an acknowledgement covers the whole message. -/
def State.xferAnswer (s : State) (q : Nat) (t : Xfer) (r : List Xfer) (x : Qp) (data : Bytes) (ack : Bool) : State :=
  if t.write ≠ ack then s
  else if t.pair = none && t.failed then s.setQp q { x with xfers := r, retries := 0 }
  else
    let bs := data.take (t.bytes - t.done)
    let t' := if ack then { t with done := t.bytes } else { t with done := t.done + bs.length }
    match t.pair with
    | some p =>
      let s := s.setQp q { x with xfers := t' :: r, retries := 0 }
      if ack then s else s.write (.pair p) (wholeBytes (t.dev + t.done) bs)
    | none =>
      let got := if ack then [] else t.got ++ bs
      let off := t.va - s.pairVal 0x8804C
      if t'.done < t.bytes then s.setQp q { x with xfers := { t' with got := got } :: r, retries := 0 }
      else (s.setQp q { x with xfers := r, retries := 0 }).tierAnswer (fun y => y.tier = 2 && y.write = t.write && y.off = off && y.len = t.bytes) got

/-- The transfers of a queue pair from its first that is not answered on, and those before it. -/
def splitXfers : List Xfer → List Xfer × List Xfer
  | [] => ([], [])
  | t :: r => if t.pair ≠ none && (t.failed || t.bytes ≤ t.done) then let (a, b) := splitXfers r; (t :: a, b) else ([], t :: r)

/-- A CNP for packets that carry the CE mark, at most one in every 50 µs (R529). -/
def State.sendCnp (s : State) (q : Nat) (ce : Bool) : State :=
  let x := s.qp q
  let due := match x.cnpAt with
    | none => true
    | some t => t.toNat + 50000 ≤ s.time.toNat
  if ce && due then (s.setQp q { x with cnpAt := some s.time }).ethSend q (.cnp q) 1 else s

/-- What a response does on a queue pair that is READY (R525, R531): a NAK for a packet out of sequence makes it send again (log entry 148). -/
def State.response (s : State) (q : Nat) (a : RdmaAnswer) : State :=
  let x := s.qp q
  let (old, live) := splitXfers x.xfers
  match a, live with
  | .nak, _ => s.qpError q
  | .sequenceNak, _ => s.retryQp q
  | .ack, t :: r => s.xferAnswer q t (old ++ r) x [] true
  | .readData d, t :: r => s.xferAnswer q t (old ++ r) x d false
  | _, [] => s

/-- A response arrives on a queue pair (R525, R529, R531, R538): its frames and NAKs are counted whatever the state of the queue pair. -/
def execRdmaResponse (q : Fin 512) (a : RdmaRsp) (s : State) : Result :=
  .next (
    let port := s.qpPort q
    if ! s.portUp port then s
    else
      let s := s.ethCount port 0 (match a.answer with | .readData d => s.packets q d.length | _ => 1)
      let s := match a.answer with
        | .nak => s.ethCount port 5 1
        | .sequenceNak => s.ethCount port 5 1
        | _ => s
      if s.qpState q ≠ 1 then s else (s.sendCnp q a.ce).response q a.answer)

/-! ### The responder (R526, R528) -/

/-- A word of a memory region's entry (R537). -/
def State.mrWord (s : State) (i k : Nat) : W32 := wordAt (storeGet (fun _ => []) s.mrs i) k

/-- Whether a request is admitted (R526); `write` for an RDMA WRITE. -/
def State.mrAdmits (s : State) (q : Nat) (rkey : W32) (va len : Nat) (write : Bool) : Bool :=
  let i := rkey.toNat / 256
  let e := storeGet (fun _ => []) s.mrs i
  let w := wordAt e 0
  i < 4096 && bit w 31 && bits w 7 0 = rkey.toNat % 256 && dword e 1 ≤ va && va + len ≤ dword e 1 + dword e 3 &&
  bit w (if write then 30 else 29) && bits w 27 24 = bits (s.qpWord q 0) 29 26 && (s.refused none va len write ≠ some memRange)

/-- A request answered with a NAK: it is counted, and the queue pair enters ERROR (R526, R528, R538). -/
def State.answerNak (s : State) (q : Nat) (o : EthOut) : State :=
  ((s.ethSend q o 1).ethCount (s.qpPort q) 5 1).qpError q

/-- A request of `n` frames and `k` packet sequence numbers from `psn` on arrives on a queue pair (R525, R538): its frames are counted. On one that is READY
the request that is due moves RQ_PSN and runs; one that lies behind runs as `again` does, and one that lies ahead is answered with a NAK (the
InfiniBand transport, log entry 148). -/
def State.arrive (s : State) (q n k : Nat) (psn : BitVec 24) (ce : Bool) (again f : State → State) : State :=
  let port := s.qpPort q
  if ! s.portUp port then s
  else
    let s := s.ethCount port 0 n
    if s.qpState q ≠ 1 then s
    else
      let s := s.sendCnp q ce
      let d := psn - (s.qpWord q 3).setWidth 24
      if d = 0 then f (s.movePsn q 3 k)
      else if d.toNat < 2 ^ 23 then (s.ethSend q (.sequenceNak q) 1).ethCount port 5 1
      else again s

/-- An RDMA WRITE from a peer (R526, R528): it is acknowledged once every byte is applied; one that comes again is acknowledged again. -/
def execRdmaWriteRequest (q : Fin 512) (rkey : W32) (va : W64) (data : Bytes) (k : ReqMark) (s : State) : Result :=
  .next (
    let n := s.packets q data.length
    s.arrive q n n k.psn k.ce (fun s => s.ethSend q (.ack q) 1) fun s =>
      if ! s.mrAdmits q rkey va.toNat data.length true then s.answerNak q (.accessNak q)
      else if (s.refused none va.toNat data.length true).isSome then s.answerNak q (.operationalNak q)
      else s.writeAck (wholeBytes va.toNat data) [] (.eth q (.ack q) (.operationalNak q)) none)

/-- What an RDMA READ from a peer does (R526, R528). -/
def State.rdmaRead (s : State) (q : Nat) (rkey : W32) (va len : Nat) : State :=
  if ! s.mrAdmits q rkey va len false then s.answerNak q (.accessNak q)
  else if (s.refused none va len false).isSome || s.poisoned va len then s.answerNak q (.operationalNak q)
  else (s.mscRead .other [(va, len)]).ethSend q (.readData q (s.read va len)) (s.packets q len)

/-- An RDMA READ from a peer (R526, R528). -/
def execRdmaReadRequest (q : Fin 512) (rkey : W32) (va : W64) (len : Nat) (k : ReqMark) (s : State) : Result :=
  .next (s.arrive q 1 (s.packets q len) k.psn k.ce (fun s => s.rdmaRead q rkey va.toNat len) fun s => s.rdmaRead q rkey va.toNat len)

/-! ### Congestion and flow control (R524, R529) -/

/-- A CNP arrives: the rate limit halves, down to 1 Gb/s (R529). -/
def execCnpReceive (q : Fin 512) (s : State) : Result :=
  .next (
    let port := s.qpPort q
    if ! s.portUp port then s
    else
      let x := s.qp q
      ((s.ethCount port 0 1).ethCount port 6 1).setQp q { x with rate := max 1000000000 (x.rate / 2) })

/-- 50 µs pass without a CNP: the rate limit rises by 10 Gb/s, up to the port rate (R529). -/
def execCnpRateRaise (q : Fin 512) (s : State) : Result :=
  .next (
    let x := s.qp q
    s.setQp q { x with rate := min 800000000000 (x.rate + 10000000000) })

/-- A PFC frame arrives: of the priorities it names, those that PFC_MASK enables pause, or go on and send what waits (R524, R536). -/
def execPfcFrame (port : Fin 2) (prio : BitVec 8) (pause : BitVec 8) (s : State) : Result :=
  .next (
    if ! s.portUp port then s
    else
      let m := prio &&& BitVec.ofNat 8 (bits (s.reg (0x80010 + 0x20 * port.val)) 15 8)
      let old := BitVec.ofNat 8 (storeGet zeroNat s.pfc port)
      let s := { s with pfc := storePut zeroNat s.pfc port ((old &&& ~~~m) ||| (pause &&& m)).toNat }
      (s.ethCount port 0 1).unpause port)

/-! ### Frames other than RoCEv2 (R524) -/

/-- The value of GID `i` of a port (R537). -/
def State.gid (s : State) (port i : Nat) : Nat :=
  let e := storeGet (fun _ => []) s.gids (port * 16 + i)
  dword e 0 + dword e 2 * 2 ^ 64

/-- Whether a port has a GID; an all-zero GID is empty (R525). -/
def State.ownGid (s : State) (port g : Nat) : Bool := g ≠ 0 && (List.range 16).any fun i => s.gid port i = g

/-- A frame other than RoCEv2: it is answered, or dropped and counted (R524, R538). -/
def State.otherFrame (s : State) (port : Nat) (answer : Option EthOut) : State :=
  if ! s.portUp port then s
  else
    let s := s.ethCount port 0 1
    match answer with
    | some o => s.portSend port 0 o 1
    | none => s.ethCount port 7 1

/-- An ARP request arrives (R524): a GID holds an IPv4 address as ::ffff:a.b.c.d. -/
def execArpRequest (port : Fin 2) (ip : BitVec 32) (s : State) : Result :=
  .next (s.otherFrame port (if s.ownGid port (0xFFFF * 2 ^ 32 + ip.toNat) then some (.arpReply port ip) else none))

/-- A Neighbour Solicitation arrives (R524). -/
def execNeighbourSolicitation (port : Fin 2) (gid : BitVec 128) (s : State) : Result :=
  .next (s.otherFrame port (if s.ownGid port gid.toNat then some (.neighbour port gid) else none))

/-- Any other frame arrives (R524), or one with a bad frame check sequence; the codewords of its port are counted with it (R538). -/
def execEthFrameDrop (f : FrameObs) (s : State) : Result :=
  .next (if ! s.portUp f.port then s
    else
      let s := (s.ethCount f.port 3 f.corrected).ethCount f.port 4 f.failed
      if f.fcsBad then (s.ethCount f.port 0 1).ethCount f.port 2 1 else s.otherFrame f.port none)

/-! ### The tables behind select registers (R527, R537) -/

/-- The BAR0 offset of a table's select register, and the words and entries of the table. -/
def ethSelReg : EthTable → Nat
  | .gid => 0x80100
  | .qp => 0x80200
  | .mr => 0x80300
def ethWords : EthTable → Nat
  | .gid => 4
  | .qp => 12
  | .mr => 5
def ethSize : EthTable → Nat
  | .gid => 32
  | .qp => 512
  | .mr => 4096

/-- The entry of a table. -/
def State.ethEntry (s : State) (t : EthTable) (i : Nat) : Words :=
  let e := storeGet (fun _ => []) (match t with | .gid => s.gids | .qp => s.qps | .mr => s.mrs) i
  (List.range (ethWords t)).map fun k => wordAt e k

/-- An entry of a table replaced. -/
def State.setEthEntry (s : State) (t : EthTable) (i : Nat) (e : Words) : State :=
  match t with
  | .gid => { s with gids := storePut (fun _ => []) s.gids i e }
  | .qp => { s with qps := storePut (fun _ => []) s.qps i e }
  | .mr => { s with mrs := storePut (fun _ => []) s.mrs i e }

/-- The DATA registers of a table. -/
def State.ethData (s : State) (t : EthTable) : Words := (List.range (ethWords t)).map fun k => s.reg (ethSelReg t + 4 + 4 * k)

/-- Whether a memory region may be committed (R527, R537). -/
def State.mrOk (s : State) (e : Words) : Bool :=
  let w := wordAt e 0
  let m := bits w 27 24
  let lo := dword e 1
  let hi := lo + dword e 3
  lo % 64 = 0 && (! bit w 30 || s.grantsAll m true 65 lo hi) && (! bit w 29 || s.grantsAll m false 65 lo hi)

/-- INDEX and REFUSED of a select register set. -/
def State.setSel (s : State) (t : EthTable) (index : Nat) (refused : Bool) : State :=
  s.setReg (ethSelReg t) (BitVec.ofNat 32 (b2n refused * 2 ^ 29 + index % 4096))

/-- An entry loaded into the DATA registers (R537). -/
def State.ethLoad (s : State) (t : EthTable) (index : Nat) : State :=
  let e := if index < ethSize t then s.ethEntry t index else []
  (List.range (ethWords t)).foldl (fun s k => s.setReg (ethSelReg t + 4 + 4 * k) (wordAt e k)) (s.setSel t index (bit (s.reg (ethSelReg t)) 29))

/-- The DATA registers written into an entry, or refused (R527, R537). -/
def State.ethCommit (s : State) (t : EthTable) (index : Nat) : State :=
  let e := s.ethData t
  let refuse := (s.setSel t index true)
  if ethSize t ≤ index then refuse
  else match t with
    | .gid => (s.setEthEntry t index e).setSel t index false
    | .qp =>
      let st := bits (wordAt e 0) 31 30
      if st = 1 && s.qpState index = 0 then (s.setEthEntry t index e).setSel t index false
      else if st = 0 then
        ((s.setEthEntry t index e).setSel t index false).dropXfers index
      else refuse.logAdd logDiscard none 0 0 0 (ethSelReg t) (2 ^ 31 + index) 16
    | .mr =>
      if s.mrOk e then (s.setEthEntry t index e).setSel t index false
      else refuse.setEthEntry t index ((s.ethEntry t index).set 0 (s.mrWord index 0 &&& 0x7FFFFFFF#32))

/-- LOAD = 1 written (R537). -/
def execEthSelLoad (t : EthTable) (index : BitVec 12) (s : State) : Result :=
  .next (s.regGate true 16 (ethSelReg t) (BitVec.ofNat 32 (2 ^ 30 + index.toNat)) fun s => s.ethLoad t index.toNat)

/-- COMMIT = 1 written (R537). -/
def execEthSelCommit (t : EthTable) (index : BitVec 12) (s : State) : Result :=
  .next (s.regGate true 16 (ethSelReg t) (BitVec.ofNat 32 (2 ^ 31 + index.toNat)) fun s => s.ethCommit t index.toNat)

end Sys2Proof.Machine
end

