-- ==== Sys2Proof/Machine/Links.lean ====
section
/-! DEFINITION. The Adtever links: arriving packets, acknowledgements, retry and training (R390, R437 to R457, R473 to R476, R484, R486, R557,
R621, R704). -/

namespace Sys2Proof.Machine

/-- The codes a sender's command stops with (R203, R427, R479). -/
def memRemoteRefused : Nat := 0x0403
def lnkDown : Nat := 0x0E01
def lnkE2e : Nat := 0x0E03
def layoutEpoch : Nat := 0x0E04
def syncRefused : Nat := 0x0A05
def colModule : Nat := 0x0F01

/-! ### Sending what waits -/

/-- Held packets that wait for a link, sent where one can take them (R445, R456). -/
def State.pumpHeld (s : State) : List Outst → List Outst → State
  | done, [] => { s with outst := done }
  | done, o :: r =>
    match o.on, s.chooseLink o.pk none with
    | none, some n =>
      let s := s.putOn n o.pk none
      s.pumpHeld (done ++ [{ o with on := some (n, (s.link n).lastSeq) }]) r
    | _, _ => s.pumpHeld (done ++ [o]) r

/-- Everything that waits for a link is sent where one can take it. -/
def State.pump (s : State) : State :=
  let s := s.txWait.foldl (fun s x => s.sendFree x.1 x.2) { s with txWait := [] }
  s.pumpHeld [] s.outst

/-! ### What arrives -/

/-- The drop counter of a link (R484). -/
def State.protoDrop (s : State) (n : Nat) : State := s.bump (offLnk n 0x18)

/-- The receiver frees the units of a packet (R444, R445), and counts the bytes of one on VC1 to VC3 (R600). -/
def State.freeUnits (s : State) (n : Nat) (k : Packet) : State :=
  let l := s.link n
  let i := k.vc * 2 + k.cls
  s.setLink n { l with freed := l.freed.set i (l.freed.getD i 0 + BitVec.ofNat 16 k.units),
                       rxBytes := if k.vc = 0 then l.rxBytes else l.rxBytes + 32 + k.data.length }

/-- An answer to a packet, with the tags of the packet it answers. -/
def State.answer (s : State) (k : Packet) (ptype : Nat) (evseq : W32) (w3 : Nat) : Packet :=
  s.mkPacket ptype 0 k.src k.runTag k.epoch evseq w3 0 0 []

/-- An acknowledgement of one packet (R441, R442), and a refusal (R440). -/
def State.ackOf (s : State) (k : Packet) (ptype : Nat) : Packet := s.answer k ptype 1 k.reqId
def State.nakOf (s : State) (k : Packet) (ptype reason : Nat) : Packet := s.answer k ptype 0 (k.reqId * 2 ^ 16 + reason * 2 ^ 12)

/-- A refusal sent. -/
def State.refuse (s : State) (k : Packet) (ptype reason : Nat) : State := s.sendFree (s.nakOf k ptype reason)

/-- A packet arrives on link `n` (R441, R443, R457, R480): `f` is what a packet of type `type` for this device does. -/
def State.rx (s : State) (n : Nat) (k : Packet) (type : Nat) (f : State → State) : State :=
  if s.linkState n ≠ 2 then s
  else if ! s.devValid || ! k.listed then (s.freeUnits n k).protoDrop n
  else if k.ptype ≠ type then s
  else
    let s := s.freeUnits n k
    if k.dst ≠ s.devId then
      if s.direct && s.reachable k.dst then s.sendFree k (some n) else s.protoDrop n
    else if k.crc ≠ k.w 7 then
      if type = 1 || type = 6 then s.refuse k 3 2 else s
    else f s

/-- A refused packet recorded (R191, R390, R473, R606). -/
def State.remoteDrop (s : State) (n : Nat) (k : Packet) (m : Option Nat) (code what : Nat) : State :=
  s.logAdd logRemoteDrop m code 3 n k.src (k.runTag * 2 ^ 16 + k.epoch) (what % 2 ^ 32)

/-- Whether a remote write may reach a context's memory (R390). -/
def State.remoteOk (s : State) (m : Nat) (k : Packet) : Bool :=
  (s.ctx m).st ≠ .idle && (s.ctx m).runTag.toNat = k.runTag && (s.refused (some m) k.addr k.data.length true).isNone

/-- A remote write refused (R390). -/
def State.refuseWrite (s : State) (n : Nat) (k : Packet) (m : Option Nat) : State :=
  ((s.bump 0x20018).remoteDrop n k m memRemoteRefused k.addr).refuse k 3 1

/-- A remote write applied on behalf of context `m`, with the lines it marks poisoned, and acknowledged once it is (R403, R440, R442); one that its tier
refuses in the meantime is refused (R397). -/
def State.applyRemote (s : State) (k : Packet) (m : Option Nat) : State :=
  let bad := (List.range 32).filterMap fun i => if bit (k.w 6) i && 64 * i < k.data.length then some (k.addr / 64 + i) else none
  s.writeAck (wholeBytes k.addr k.data) bad (.link (s.ackOf k 2) (s.nakOf k 3 1)) m

/-- The lowest-numbered context that is not IDLE and has the packet's run tag (R473). -/
def State.tagged (s : State) (k : Packet) : Option Nat :=
  (List.range 16).find? fun m => (s.ctx m).st ≠ .idle && (s.ctx m).runTag.toNat = k.runTag

/-- The context that is not IDLE and whose global run holds the packet's object (R191). -/
def State.globalOwner (s : State) (k : Packet) : Option Nat :=
  (List.range 16).find? fun m => (s.ctx m).st ≠ .idle && s.ownsGlobal m k.obj

/-- A remote WRITE arrives (R390, R442). -/
def execRxWrite (n : Fin 64) (pk : Packet) (s : State) : Result :=
  .next (s.rx n pk 1 fun s =>
    match (List.range 16).find? fun m => s.remoteOk m pk with
    | some m => s.applyRemote pk (some m)
    | none => s.refuseWrite n pk (s.tagged pk))

/-- A packet refused for its layout epoch (R473). -/
def State.refuseEpoch (s : State) (n : Nat) (k : Packet) (m ptype what : Nat) : State :=
  ((s.bump 0x70014).remoteDrop n k (some m) layoutEpoch what).refuse k ptype 3

/-- A COLL_WRITE arrives: its epoch is checked first, then what R390 asks (R473). -/
def execRxCollWrite (n : Fin 64) (pk : Packet) (s : State) : Result :=
  .next (s.rx n pk 6 fun s =>
    match s.tagged pk with
    | none => s.refuseWrite n pk none
    | some m =>
      if (s.ctx m).epoch.toNat ≠ pk.epoch then s.refuseEpoch n pk m 3 pk.addr
      else if s.remoteOk m pk then s.applyRemote pk (some m)
      else s.refuseWrite n pk (some m))

/-- A remote signal applied or refused (R191, R442). -/
def State.remoteSignal (s : State) (n : Nat) (k : Packet) : State :=
  match s.globalOwner k with
  | some m =>
    if (s.ctx m).runTag.toNat = k.runTag then (s.addObj k.obj k.add).sendFree (s.ackOf k 5)
    else ((s.bump 0x50008).remoteDrop n k (some m) 0 k.obj).refuse k 10 1
  | none => ((s.bump 0x50008).remoteDrop n k none 0 k.obj).refuse k 10 1

/-- A remote SIGNAL arrives (R191). -/
def execRxSignal (n : Fin 64) (pk : Packet) (s : State) : Result := .next (s.rx n pk 4 fun s => s.remoteSignal n pk)

/-- A COLL_SIGNAL arrives: its epoch is checked first (R473). -/
def execRxCollSignal (n : Fin 64) (pk : Packet) (s : State) : Result :=
  .next (s.rx n pk 7 fun s =>
    match s.globalOwner pk with
    | some m => if (s.ctx m).epoch.toNat ≠ pk.epoch then s.refuseEpoch n pk m 10 pk.obj else s.remoteSignal n pk
    | none => s.remoteSignal n pk)

/-- A STOP arrives: it triggers the watershed, or is dropped (R611, R621). -/
def execRxStop (n : Fin 64) (pk : Packet) (s : State) : Result :=
  .next (s.rx n pk 8 fun s =>
    if bit (s.reg 0x98000) 2 && (s.tagged pk).isSome then s.freeze 4 pk.src else s.remoteDrop n pk none 0 pk.addr)

/-! ### Answers (R192, R442, R443, R704) -/

/-- The packets that a type of answer settles: 1 for writes, 4 for signals. -/
def settles (type : Nat) (k : Packet) : Bool :=
  if type = 1 then k.ptype = 1 || k.ptype = 6 || k.ptype = 9 else k.ptype = 4 || k.ptype = 7

/-- The packet held that an answer from `src` names. -/
def State.heldBy (s : State) (type src req : Nat) : Option Outst :=
  s.outst.find? fun o => settles type o.pk && o.pk.reqId = req && o.pk.dst = src

/-- A packet is held no longer. -/
def State.release (s : State) (o : Outst) : State := { s with outst := s.outst.filter fun x => x.pk.reqId ≠ o.pk.reqId }

/-- A packet is acknowledged, and what waited for it goes on. -/
def State.settle (s : State) (type src req : Nat) : State :=
  match s.heldBy type src req with
  | none => s
  | some o =>
    let s := s.release o
    match o.owner with
    | .cmd p id _ _ _ _ => s.collStep p id
    | .gone _ => s
    | .ckpt => s.tierAnswer (fun x => x.tier = 0 && x.write && x.req.toNat = req) []

/-- A WRITE_ACK arrives (R441, R442). -/
def execRxWriteAck (n : Fin 64) (pk : Packet) (s : State) : Result :=
  .next (s.rx n pk 2 fun s => pk.ackIds.foldl (fun s i => s.settle 1 pk.src i) s)

/-- A SIGNAL_ACK arrives (R441, R442). -/
def execRxSignalAck (n : Fin 64) (pk : Packet) (s : State) : Result :=
  .next (s.rx n pk 5 fun s => pk.ackIds.foldl (fun s i => s.settle 4 pk.src i) s)

/-- Whether a packet belongs to a command that has stopped (R201): it is settled like any other, and never sent again. -/
def Outst.gone (o : Outst) : Bool :=
  match o.owner with
  | .gone _ => true
  | _ => false

/-- The command that sent a packet stops (R192, R201, R443, R449, R473, R704); a checkpoint drain or restore fails its tier. -/
def State.stopOwner (s : State) (o : Outst) (code : Nat) : State :=
  match o.owner with
  | .ckpt => s.ckpFail ckpTier
  | .gone _ => s
  | .cmd p id tag pos pro _ =>
    match (s.plain p).jobs.find? fun j => j.id = id with
    | some j => s.faultJob p j code
    | none => (s.abandonFrom p id).fault p code tag (s.tagAt p pos pro) false 1 p o.pk.obj

/-- A WRITE_NAK arrives: after a CRC error the packet is sent again, at most eight times; otherwise its command stops (R390, R443, R473). -/
def execRxWriteNak (n : Fin 64) (pk : Packet) (s : State) : Result :=
  .next (s.rx n pk 3 fun s =>
    match s.heldBy 1 pk.src pk.reqId with
    | none => s
    | some o =>
      let s := s.release o
      if pk.reason = 2 && ! o.gone then (if o.fails + 1 < 8 then s.sendHeld o.pk o.owner (o.fails + 1) else s.stopOwner o lnkE2e)
      else s.stopOwner o (if pk.reason = 3 then layoutEpoch else memRemoteRefused))

/-- A SIGNAL_NAK arrives: the sending SIGNAL or COLL stops; one that matches no signal is dropped (R192, R473). -/
def execRxSignalNak (n : Fin 64) (pk : Packet) (s : State) : Result :=
  .next (s.rx n pk 10 fun s =>
    match s.heldBy 4 pk.src pk.reqId with
    | none => s
    | some o => (s.release o).stopOwner o (if pk.reason = 3 then layoutEpoch else syncRefused))

/-- A packet has drawn no answer for 100 ms: it is settled, and its command stops (R704). -/
def execPacketSettleTimeout (reqId : BitVec 16) (s : State) : Result :=
  .next (match s.outst.find? fun o => o.pk.reqId = reqId.toNat with
    | some o => (s.release o).stopOwner o lnkE2e
    | none => s)

/-! ### Checkpoint traffic (R557) -/

/-- Whether the hosted range admits an access (R557). -/
def State.hostedOk (s : State) (k : Packet) (n : Nat) (write : Bool) : Bool :=
  let c := s.reg 0x8803C
  let b := s.pairVal 0x88034
  bit c 31 && k.src = bits c 11 0 && b ≤ k.addr && k.addr + n ≤ b + bits c 30 12 * 2097152 && (s.refused none k.addr n write).isNone

/-- A CKPT packet arrives: a write or a read of the hosted range, or data that this device asked for (R557). -/
def execRxCkpt (n : Fin 64) (pk : Packet) (s : State) : Result :=
  .next (s.rx n pk 9 fun s =>
    let len := bits (pk.w 3) 11 0
    match bits (pk.w 6) 1 0 with
    | 0 => if s.hostedOk pk pk.data.length true then s.writeAck (wholeBytes pk.addr pk.data) [] (.link (s.ackOf pk 2) (s.nakOf pk 3 1)) none else s.refuse pk 3 1
    | 1 =>
      if s.hostedOk pk len false then
        let (bs, s) := (s.mscRead .other [(pk.addr, len)]).freePoison pk.addr (s.read pk.addr len) s.poisoned
        s.sendFree (s.mkPacket 9 3 pk.src pk.runTag pk.epoch 0 (pk.reqId * 2 ^ 16 + len) pk.addr 2 bs)
      else s.refuse pk 3 1
    | 2 => match s.heldBy 1 pk.src pk.reqId with
      | some o => (s.release o).tierAnswer (fun x => x.tier = 0 && ! x.write && x.req.toNat = pk.reqId) pk.data
      | none => s
    | _ => s.protoDrop n)

/-! ### Flits and retry (R438, R445 to R449) -/

/-- Fields of a control word (R438). -/
def ctlField (w : W64) (msb lsb : Nat) : Nat := w.toNat / 2 ^ lsb % 2 ^ (msb + 1 - lsb)

/-- Flits of a link that are sent and not acknowledged. -/
def Link.unacked (l : Link) : Nat := (l.txNext - l.acked - 1).toNat

/-- Every flit that is not acknowledged is sent again, in order (R447). -/
def State.replay (s : State) (n : Nat) : State :=
  let l := s.link n
  if l.unacked = 0 then s else (s.setLink n { l with replays := l.replays + 1, out := l.out ++ l.kept }).bump (offLnk n 8) l.unacked

/-- The partner has accepted every flit up to `a` (R447): they are kept no longer, and packets it holds whole are delivered on the link. -/
def State.linkAcked (s : State) (n : Nat) (a : BitVec 12) : State :=
  let l := s.link n
  let k := (a - l.acked).toNat
  if k = 0 || l.unacked < k then s
  else
    { s.setLink n { l with acked := a, replays := 0, kept := l.kept.drop k } with
      outst := s.outst.map fun o => match o.on with
        | some (i, f) => if i = n && (a - f).toNat < 2048 then { o with on := some (64, 0) } else o
        | none => o }

/-- The next flit of a link leaves, full or not: an idle flit carries null units only (R437 to R439). While the replay buffer is full none does (R447). -/
def State.sendFlit (s : State) (n : Nat) : State :=
  if s.linkState n = 2 && (s.link n).unacked < 128 then s.setLink n (s.link n).cut else s

/-- What a flit that arrives does (R438, R447): it is accepted or discarded; a flit accepted brings its credit update, its ACK and its NAK. -/
def State.takeFlit (s : State) (n : Nat) (f : FlitObs) : State :=
  let l := s.link n
  let fseq := BitVec.ofNat 12 (ctlField f.ctl 63 52)
  let good := f.failed = 0 && ccrc f.ctl = ctlField f.ctl 15 0
  if good && fseq = l.rxLast + 1 then
    let i := ctlField f.ctl 37 36 * 2 + ctlField f.ctl 38 38
    let s := s.setLink n { l with rxLast := fseq, nak := false, cred := l.cred.set i (BitVec.ofNat 16 (ctlField f.ctl 35 20)) }
    let s := s.linkAcked n (BitVec.ofNat 12 (ctlField f.ctl 51 40))
    (if ctlField f.ctl 39 39 = 1 then s.replay n else s).pump
  else if good && 2048 ≤ (fseq - l.rxLast - 1).toNat then s
  else s.setLink n { l with nak := true }

/-- A flit arrives (R437, R438, R447), with its codewords counted (R484), and the link sends the flit of the same flit time (log entry 8). -/
def execFlitReceive (n : Fin 64) (f : FlitObs) (s : State) : Result :=
  .next (if s.linkState n ≠ 2 then s else (((s.bump (offLnk n 0xC) f.corrected).bump (offLnk n 0x10) f.failed).takeFlit n f).sendFlit n)

/-- ACK has not advanced for 4 µs (R447). -/
def execReplayTimeout (n : Fin 64) (s : State) : Result := .next (if s.linkState n = 2 then s.replay n else s)

/-- A link enters FAILED (R449): packets that were not all acknowledged on it are discarded, and what sent them stops with LNK_DOWN. -/
def State.linkFail (s : State) (n : Nat) : State :=
  let lost := s.outst.filter fun o => match o.on with | some (i, _) => i = n | none => false
  let s := s.setLinkState n 3
  let s := { s with outst := s.outst.filter fun o => match o.on with | some (i, _) => i ≠ n | none => true }
  let owners := (lost.map fun o => o.owner).eraseDups
  owners.foldl (fun s w => match lost.find? fun o => o.owner = w with
    | some o => s.stopOwner o lnkDown
    | none => s) s

/-- One flit has been replayed 64 times in a row (R449). -/
def execLinkReplayLimit (n : Fin 64) (s : State) : Result :=
  .next (if s.linkState n = 2 && 64 ≤ (s.link n).replays then s.linkFail n else s)

/-- No flit that the receiver can accept has arrived for 1 ms (R449). -/
def execLinkRxLoss (n : Fin 64) (s : State) : Result := .next (if s.linkState n = 2 then s.linkFail n else s)

/-! ### Training and cols (R449, R484, R486) -/

/-- Whether a col's links may be trained: its EN is 1 and its module is powered (R482, R486). -/
def State.colReady (s : State) (k : Nat) : Bool := bit (s.reg (0x70100 + 8 * k)) 31 && bit (s.reg (0x78004 + 0x10 * k)) 0

/-- A link that is TRAINING or UP goes DOWN (R484, R486). -/
def State.linkDown (s : State) (n : Nat) : State := if s.linkState n = 1 || s.linkState n = 2 then s.setLinkState n 0 else s

/-- A write of LNK_CTRL (R449, R484). -/
def State.linkEn (s : State) (n : Nat) (en : Bool) : State :=
  let old := bit (s.reg (offLnk n 4)) 0
  let s := s.setReg (offLnk n 4) (BitVec.ofNat 32 (b2n en))
  if en && ! old then (if s.colReady (n / 4) then s.setLinkState n 1 else s)
  else if ! en && old then s.linkDown n
  else s

/-- EN of a link is written (R484). -/
def execLnkCtrlEn (n : Fin 64) (en : Bool) (s : State) : Result :=
  .next (s.regGate true 16 (offLnk n 4) (BitVec.ofNat 32 (b2n en)) fun s => s.linkEn n en)

/-- Training ends (R484, R486). -/
def execLinkTrained (n : Fin 64) (t : TrainObs) (s : State) : Result :=
  .next (
    if s.linkState n ≠ 1 then s
    else match t with
    | .badModule =>
      let k := n.val / 4
      ((s.setBits (0x78000 + 0x10 * k) 0x04000000#32 0x04000000#32).logAdd logFault none colModule 5 k 0 0 0).setLinkState n 0
    | .up peer =>
      let w := match peer with
        | some d => 2 ^ 24 + d.toNat * 2 ^ 12
        | none => 0
      let s := { s with outst := s.outst.map fun (o : Outst) => match o.on with
        | some (i, _) => if i = n.val then { o with on := some (64, 0) } else o
        | none => o }
      (((s.setBits (offLnk n 0) 0x01FFF000#32 (BitVec.ofNat 32 w)).setLink n (s.link n).train).setLinkState n 2).pump)

/-- The links of a col that are TRAINING or UP go DOWN (R486). -/
def State.colDown (s : State) (k : Nat) : State := (List.range 4).foldl (fun s i => s.linkDown (4 * k + i)) s

/-- What a cage shows of its module: PRESENT, MEDIA, POWER_GOOD, FAULT and TEMP_C (R486). -/
def State.setCage (s : State) (k : Nat) (c : CageObs) : State :=
  let good := c.present && bit (s.reg (0x78004 + 0x10 * k)) 0
  s.setReg (0x78000 + 0x10 * k) (if c.present then
    BitVec.ofNat 32 (2 ^ 31 + c.media.toNat * 2 ^ 28 + b2n good * 2 ^ 27 + b2n c.fault * 2 ^ 26 + c.tempC.toNat * 2 ^ 8) else 0)

/-- A cage module's reset starts, or ends with what the module then reports (R486). -/
def execColModReset (k : Fin 16) (ended : Option CageObs) (s : State) : Result :=
  .next (match ended with
    | some c => (s.setBits (0x78004 + 0x10 * k.val) 2 0).setCage k c
    | none => s.regGate true 16 (0x78004 + 0x10 * k.val) (2 ||| s.reg (0x78004 + 0x10 * k.val)) fun s => s.setBits (0x78004 + 0x10 * k.val) 2 2)

/-- Module power written (R486). -/
def State.colPower (s : State) (k : Nat) (on : Bool) : State :=
  let s := s.setBits (0x78004 + 0x10 * k) 1 (if on then 1 else 0)
  let good := on && bit (s.reg (0x78000 + 0x10 * k)) 31
  let s := s.setBits (0x78000 + 0x10 * k) 0x08000000#32 (if good then 0x08000000#32 else 0)
  if on then s else s.colDown k

/-- Module power is switched (R486). -/
def execColModPwr (k : Fin 16) (on : Bool) (s : State) : Result :=
  .next (s.regGate true 16 (0x78004 + 0x10 * k.val) (BitVec.ofNat 32 (b2n on)) fun s => s.colPower k on)

/-! ### Layout epochs (R474 to R476) -/

/-- A layout epoch is requested for a context (R475, R476). -/
def State.reshard (s : State) (m : Nat) (e : BitVec 16) : State :=
  let c := s.ctx m
  if s.inFlight m ≠ 0 then s.setCtx m { c with busy := true }
  else if c.st = .running then s.setCtx m { c with busy := false, pending := some e }
  else s.setCtx m { c with busy := false, epoch := e, pending := none }

/-- A write of LNK_CTX_RESHARD (R475, R483, R492). -/
def execLnkCtxReshard (v : Nat) (m : Fin 16) (epoch : BitVec 16) (s : State) : Result :=
  .next (s.regGate (ownView v m) v (0x70204 + 0x10 * m.val) (epoch.setWidth 32) fun s => s.reshard m epoch)

end Sys2Proof.Machine
end

