-- ==== Sys2Proof/Machine/Crypto.lean ====
section
/-! DEFINITION. ECDSA over the curve P-521 with SHA-512 (R636, R637, R655), as the standard of the signature defines it; keys and signatures are
big-endian byte strings. -/

namespace Sys2Proof.Machine

/-- The field prime of P-521, the coefficient b, the order of the base point, and the base point. -/
def ecP : Nat := 2 ^ 521 - 1
def ecB : Nat :=
  0x0051953EB9618E1C9A1F929A21A0B68540EEA2DA725B99B315F3B8B489918EF109E156193951EC7E937B1652C0BD3BB1BF073573DF883D2C34F1EF451FD46B503F00
def ecN : Nat :=
  0x01FFFFFFFFFFFFFFFFFFFFFFFFFFFFFFFFFFFFFFFFFFFFFFFFFFFFFFFFFFFFFFFFFA51868783BF2F966B7FCC0148F709A5D03BB5C9B8899C47AEBB6FB71E91386409
def ecGx : Nat :=
  0x00C6858E06B70404E9CD9E3ECB662395B4429C648139053FB521F828AF606B4D3DBAA14B5E77EFE75928FE1DC127A2FFA8DE3348B3C1856A429BF97E7E31C2E5BD66
def ecGy : Nat :=
  0x011839296A789A3BC0045C8A5FB42C7D1BD998F54449579B446817AFBD17273E662C97EE72995EF42640C550B9013FAD0761353C7086A272C24088BE94769FD16650

/-- `b ^ e` modulo `m`, over the `n` low bits of `e` from the highest on. -/
def powMod (m b e : Nat) : Nat → Nat → Nat
  | 0, r => r
  | n + 1, r => powMod m b e n (if e.testBit n then r * r % m * b % m else r * r % m)

/-- The inverse modulo a prime below 2^521. -/
def invMod (m a : Nat) : Nat := powMod m (a % m) (m - 2) 521 1

/-- A difference modulo `m`, of numbers below `m`. -/
def subMod (m a b : Nat) : Nat := (a + (m - b % m)) % m

/-- A point in Jacobian coordinates; z = 0 is the point at infinity. -/
structure EcPoint where
  x : Nat
  y : Nat
  z : Nat

/-- The point doubled. -/
def ecDouble (q : EcPoint) : EcPoint :=
  if q.z = 0 || q.y = 0 then ⟨1, 1, 0⟩
  else
    let zz := q.z * q.z % ecP
    let m := 3 * (subMod ecP q.x zz * (q.x + zz)) % ecP
    let yy := q.y * q.y % ecP
    let t := 4 * q.x * yy % ecP
    let x := subMod ecP (m * m % ecP) (2 * t % ecP)
    ⟨x, subMod ecP (m * subMod ecP t x % ecP) (8 * yy * yy % ecP), 2 * q.y * q.z % ecP⟩

/-- The sum of two points. -/
def ecAdd (a b : EcPoint) : EcPoint :=
  if a.z = 0 then b
  else if b.z = 0 then a
  else
    let za := a.z * a.z % ecP
    let zb := b.z * b.z % ecP
    let u := a.x * zb % ecP
    let h := subMod ecP (b.x * za % ecP) u
    let w := a.y * zb * b.z % ecP
    let r := subMod ecP (b.y * za * a.z % ecP) w
    if h = 0 then (if r = 0 then ecDouble a else ⟨1, 1, 0⟩)
    else
      let hh := h * h % ecP
      let hhh := h * hh % ecP
      let v := u * hh % ecP
      let x := subMod ecP (subMod ecP (r * r % ecP) hhh) (2 * v % ecP)
      ⟨x, subMod ecP (r * subMod ecP v x % ecP) (w * hhh % ecP), h * a.z * b.z % ecP⟩

/-- A multiple of a point, over the `n` low bits of `k` from the highest on. -/
def ecMul (k : Nat) (q : EcPoint) : Nat → EcPoint → EcPoint
  | 0, r => r
  | n + 1, r => ecMul k q n (if k.testBit n then ecAdd (ecDouble r) q else ecDouble r)

/-- Whether (r, s) is a signature of `msg` under the uncompressed public key: 0x04, X in 66 bytes, Y in 66 bytes. -/
def ecdsaOk (key msg r s : Bytes) : Bool :=
  let x := beNat ((key.drop 1).take 66)
  let y := beNat ((key.drop 67).take 66)
  let r := beNat r
  let s := beNat s
  let onCurve := x < ecP && y < ecP && y * y % ecP = subMod ecP ((x * x + (ecP - 3)) % ecP * x % ecP + ecB) 0
  if ! (key.length = 133 && key.headD 0 = 4 && onCurve && 0 < r && r < ecN && 0 < s && s < ecN) then false
  else
    let e := beNat (sha512 msg)
    let w := invMod ecN s
    let q := ecAdd (ecMul (e * w % ecN) ⟨ecGx, ecGy, 1⟩ 521 ⟨1, 1, 0⟩) (ecMul (r * w % ecN) ⟨x, y, 1⟩ 521 ⟨1, 1, 0⟩)
    if q.z = 0 then false
    else
      let i := invMod ecP q.z
      q.x * i % ecP * i % ecP % ecN = r

end Sys2Proof.Machine
end

