-- ==== Sys2Proof/Machine/Sec.lean ====
section
/-! DEFINITION. Firmware images, boot records, alarms, and FW_ACTIVATE (R581, R582, R633 to R643, R650 to R653, R666, R667). -/

namespace Sys2Proof.Machine

/-- SEC_GLITCH, FW_IMAGE, FW_ROLLBACK, SEC_UNLOCK and FW_COMPAT (R587, R667). -/
def secGlitch : Nat := 0x1501
def fwImage : Nat := 0x1502
def fwRollback : Nat := 0x1503
def secUnlock : Nat := 0x1505
def fwCompat : Nat := 0x110A

/-! ### Images (R636, R637) -/

/-- Whether the bytes from `a` up to, and not including, `b` are zero. -/
def zeroBytes (bs : Bytes) (a b : Nat) : Bool := ((bs.drop a).take (b - a)).all fun x => x = 0

/-- What the bytes of a slot say of an image of a part (R636); `signed` holds all of R637 but the revocation and the minimum of the fuses. -/
def imageOf (plain : Bool) (bs : Bytes) : FwImage :=
  let at_ := fun a n => (bs.drop a).take n
  let n := leNat (at_ 16 4)
  let k := leNat (at_ 13 1)
  let rev := leNat (at_ 14 1)
  let svn := leNat (at_ 12 1)
  let key := at_ 128 133
  ⟨BitVec.ofNat 16 (leNat (at_ 8 2)), svn, k % 4, BitVec.ofNat 4 rev, at_ 64 64,
   leNat (at_ 0 4) = 0x474D4946 && leNat (at_ 4 2) = b2n plain && svn ≤ 64 && k < 4 && rev < 16 && n ≤ 67108352 && 512 + n ≤ bs.length &&
   zeroBytes bs 6 8 && zeroBytes bs 10 12 && zeroBytes bs 15 16 && zeroBytes bs 20 64 && zeroBytes bs 261 264 && zeroBytes bs 396 512 &&
   sha512 key = Config.rootHash (k % 4) && ecdsaOk key (at_ 0 264) (at_ 264 66) (at_ 330 66) && sha512 (at_ 512 n) = at_ 64 64⟩

/-- The fused minimum of a part (R633). -/
def Sec.minSvn (x : Sec) (plain : Bool) : Nat := if plain then x.svnPlain else x.svnHub

/-- Whether an image verifies but for its security version, and whether it verifies (R637). -/
def Sec.trusts (x : Sec) (i : FwImage) : Bool := i.signed && ! x.revoke.getLsbD i.key
def Sec.verifies (x : Sec) (plain : Bool) (i : FwImage) : Bool := x.trusts i && x.minSvn plain ≤ i.svn
def Sec.slotOk (x : Sec) (plain b : Bool) : Bool :=
  match x.image plain b with
  | some i => x.verifies plain i
  | none => false

/-! ### Boot records and the choice at boot (R635, R638, R643) -/

/-- The current boot record copy, and which copy it is (R635). -/
def Sec.record (x : Sec) : Option (Nat × BootRec) :=
  match bootRecOf (x.boot.getD 0 []), bootRecOf (x.boot.getD 1 []) with
  | some a, some b => if 0 < (b.seq - a.seq).toNat && (b.seq - a.seq).toNat < 2 ^ 31 then some (1, b) else some (0, a)
  | some a, none => some (0, a)
  | none, some b => some (1, b)
  | none, none => none

/-- The slot that the boot record names for a part; slot A where no copy is valid (R638). -/
def Sec.named (x : Sec) (plain : Bool) : Bool :=
  match x.record with
  | some (_, r) => if plain then r.plain else r.hub
  | none => false

/-- The slot a part boots from (R638). -/
def Sec.bootSlot (x : Sec) (plain : Bool) : Option Bool :=
  let n := x.named plain
  if x.slotOk plain n then some n else if x.slotOk plain (! n) then some (! n) else none

/-- The non-current boot record copy written with the new slot of a part (R643 step 2). -/
def Sec.writeRecord (x : Sec) (plain slot : Bool) : Sec :=
  let (k, q) := match x.record with
    | some (k, r) => (1 - k, r.seq + 1)
    | none => (0, 0)
  { x with boot := x.boot.set k (BootRec.bytes ⟨q, if plain then x.named false else slot, if plain then slot else x.named true⟩) }

/-- The fuses of the minimum of a part burnt up to `n` (R643 step 3), and those of the root keys that an image revokes, never its own (R643 step 4). -/
def Sec.burnSvn (x : Sec) (plain : Bool) (n : Nat) : Sec := if plain then { x with svnPlain := max x.svnPlain n } else { x with svnHub := max x.svnHub n }
def FwImage.revokes (i : FwImage) : BitVec 4 := i.revoke &&& ~~~(1#4 <<< i.key)

/-- Step `k` + 2 of a commit (R643): the record, the minimum, the root keys. -/
def Sec.commitStep (x : Sec) (plain slot : Bool) (k : Nat) : Sec :=
  if k = 0 then x.writeRecord plain slot
  else match x.image plain slot with
    | none => x
    | some i => if k = 1 then x.burnSvn plain i.svn else { x with revoke := x.revoke ||| i.revokes }

/-- Steps 2 to 4 of a commit but for the first `done`. -/
def Sec.commitFrom (x : Sec) (plain slot : Bool) (done : Nat) : Sec :=
  ([0, 1, 2].filter fun k => done ≤ k).foldl (fun x k => x.commitStep plain slot k) x

/-- A slot of a part committed, but for the steps completed before, and the journal cleared (R643). -/
def Sec.commit (x : Sec) (plain slot : Bool) (done : Nat := 0) : Sec :=
  let y := x.commitFrom plain slot done
  if plain then { y with journal := none, stagedPlain := none } else { y with journal := none, stagedHub := none }

/-- A step of a commit that a loss of power cuts: a record copy is old or invalid (R635), and any of the fuses of the step are burnt. -/
def Sec.cutStep (x : Sec) (plain slot : Bool) (k : Nat) (w : W32) : Sec :=
  if k = 0 then
    if bit w 2 then
      let c := match x.record with
        | some (c, _) => 1 - c
        | none => 0
      { x with boot := x.boot.set c (List.replicate 64 0xFF) }
    else x
  else match x.image plain slot with
    | none => x
    | some i =>
      if k = 1 then x.burnSvn plain (x.minSvn plain + bits w 9 3 % (i.svn - x.minSvn plain + 1))
      else if k = 2 then { x with revoke := x.revoke ||| (i.revokes &&& BitVec.ofNat 4 (bits w 13 10)) }
      else x

/-- A commit that a cold reset or a loss of power cuts (R643): free values say how many steps are complete, and what is done of the next one
(log entry 94). -/
def Sec.cutCommit (x : Sec) (w : W32) : Sec :=
  match x.journal with
  | some (.commit plain slot done) =>
    let n := min 3 (done + bits w 1 0)
    let y := ([0, 1, 2].filter fun k => done ≤ k && k < n).foldl (fun x k => x.commitStep plain slot k) x
    { y.cutStep plain slot n w with journal := some (.commit plain slot n) }
  | _ => x

/-- Keys erased (R651, R660, R664). -/
def State.eraseKeys (s : State) (all : Bool) : State :=
  { s with mgt := { s.mgt with sessions := [] }, sec := if all then { s.sec with idk := false, ak := none } else s.sec }

/-! ### Alarms (R650 to R653) and halts that no command causes (R708) -/

/-- A SECURITY entry (R666). -/
def State.logSec (s : State) (sources action : Nat) : State := s.logAdd logSecurity none 0 0 0 sources action s.phase

/-- The contexts in the states named halt, for no command (R201, R708). -/
def State.haltAll (s : State) (code : Nat) (ok : CtxState → Bool) : State :=
  (List.range 16).foldl (fun s m =>
    if ok (s.ctx m).st && ! s.resetting m then (s.logAdd logFault (some m) code 0 0 0 (s.ctx m).step.toNat 0).haltCtx m code none 0 else s) s

/-- Bits of SEC_ALARM (R668). -/
def alarmNum : AlarmSrc → Nat
  | .vglitch => 0
  | .cglitch => 1
  | .temp => 2
  | .mesh => 3
  | .debug => 4

/-- An alarm acts (R651, R652). -/
def State.alarm (s : State) (i : Nat) : State :=
  let s := s.setBits 0xA8004 (BitVec.ofNat 32 (2 ^ i)) 0xFFFFFFFF#32
  let s := s.eraseKeys s.sec.eraseAll
  let s := { s with sec := { s.sec with unlocked := false } }
  let s := s.logSec (s.reg 0xA8004).toNat (1 + b2n s.sec.eraseAll)
  let s := s.adminMsix
  if i < 2 then s.haltAll secGlitch fun st => st = .running else s

/-- A sensor alarm (R650 to R652). -/
def execSecAlarm (a : AlarmSrc) (s : State) : Result := .next (if s.board.power then s.alarm (alarmNum a) else s)

/-! ### FW_ACTIVATE (R581, R582) -/

/-- The slot that a part would switch to: a staged one that does not run. -/
def Sec.fresh (x : Sec) (plain : Bool) : Option Bool := if x.staged plain = x.run plain then none else x.staged plain

/-- The plain part of every context switched, or switched at its next boundary (R581). -/
def State.switchContexts (s : State) (ver : BitVec 16) : State :=
  (List.range 16).foldl (fun s m =>
    let s := s.setCtx m { s.ctx m with fwNext := some ver }
    if (s.ctx m).st = .running then s else s.switchPlain m) s

/-- The staged parts activated, or refused (R581, R582): the status and the state. -/
def State.activate (s : State) : Nat × State :=
  let x := s.sec
  let new := match x.fresh true with
    | some b => x.image true b
    | none => none
  let idle := (List.range 16).all fun m => (s.ctx m).st = .idle
  let major := fun (v : BitVec 16) => v.toNat / 256
  match new with
  | some i =>
    if major i.ver ≠ major (x.version true) && ! idle then (fwCompat, s)
    else
      let y := { x with hubRun := x.fresh false <|> x.hubRun, plainRun := x.fresh true }
      (0, ({ s with sec := y }).switchContexts i.ver)
  | none => (0, { s with sec := { x with hubRun := x.fresh false <|> x.hubRun } })

/-- FW_ACTIVATE, on the admin pair (R581, R585). -/
def execFwActivate (r : Fin 17) (e : Words) (s : State) : Result :=
  .next (s.ring r e 0x13 (r.val = 16) [] 2 fun s =>
    let (st, s) := s.activate
    s.complete r st)

end Sys2Proof.Machine
end

