-- ==== Sys2Proof/Machine/Mgmt.lean ====
section
/-! DEFINITION. The management core: the mailbox and type 0x7E commands, long operations, the heartbeat and MCTP control (R631, R642, R643, R654
to R665). -/

namespace Sys2Proof.Machine

/-- MGT_BUSY, MGT_PHASE, MGT_CMD and MGT_ABORTED (R667). -/
def mgtBusy : Nat := 0x1601
def mgtPhase : Nat := 0x1602
def mgtCmd : Nat := 0x1603
def mgtAborted : Nat := 0x1604

/-! ### Interfaces and answers (R631, R642, R657, R659) -/

/-- Whether requests of an interface are heard: in RECOVERY the ROM serves the management header only (R642); PCIe VDM and DOE need
configuration space (R628, R657). -/
def State.hears (s : State) (i : MgtIface) : Bool :=
  s.board.power && match i with
    | .header => true
    | .mailbox => s.phase ≠ 6
    | .vdm => s.configServed
    | .doe => s.configServed

/-- The number of an interface (R666), which keys its SPDM connection. -/
def ifaceNum : MgtIface → Nat
  | .header => 0
  | .vdm => 1
  | .doe => 2
  | .mailbox => 3

/-- Words put into MGT_MB_DATA (R659). -/
def State.putData (s : State) (ws : Words) : State :=
  ((ws.take 68).zip (List.range 68)).foldl (fun s x => s.setReg (0xB0040 + 4 * x.2) x.1) s

/-- A command of the mailbox or of type 0x7E answered (R659, R662): a long operation of the mailbox shows IN_PROGRESS until it ends. -/
def State.vendorAnswer (s : State) (i : MgtIface) (token : BitVec 8) (started : Bool) (result : Nat) (data : Words) : State :=
  if i = .mailbox then
    if started then s
    else (s.putData data).setReg 0xB0014 (BitVec.ofNat 32 (2 ^ 31 + token.toNat * 2 ^ 16 + result))
  else { s with mgtTx := s.mgtTx ++ [.vendor i token started result data] }

/-- The value that a mailbox command writes to MGT_MB_CMD (R669). -/
def mbWord (token : BitVec 8) (opcode : Nat) : W32 := BitVec.ofNat 32 (token.toNat * 2 ^ 16 + opcode)

/-- A command of the mailbox or of type 0x7E arrives (R631, R642, R659, R663): it is served by `f`, or refused. -/
def State.vendor (s : State) (i : MgtIface) (token : BitVec 8) (opcode : Nat) (request : Words) (f : State → State) : State :=
  if ! s.hears i then s
  else if i = .mailbox && bit (s.reg 0xB0014) 30 then s.discard 16 0xB0010 (mbWord token opcode)
  else
    let s := if i = .mailbox then ((s.putData request).setReg 0xB0010 (mbWord token opcode)).setBits 0xB0014 0xC0000000#32 0x40000000#32 else s
    if s.mgt.long.isSome && opcode ≠ 4 then s.vendorAnswer i token false mgtBusy []
    else if ! (s.ready || opcode = 1 || opcode = 2 || (opcode = 4 && s.phase ≠ 6)) then s.vendorAnswer i token false mgtPhase []
    else f s

/-- `n` free words drawn. -/
def State.drawWords (s : State) (n : Nat) : Words × State :=
  ((List.range n).map fun i => Config.freeWord (s.free + i), { s with free := s.free + n })

/-! ### Queries (R660) -/

/-- GET_STATUS. -/
def execGetStatus (i : MgtIface) (token : BitVec 8) (s : State) : Result :=
  .next (s.vendor i token 0x01 [] fun s => s.vendorAnswer i token false 0 [s.reg 0xB0000, s.secStatus, s.reg 0xA8004])

/-- GET_IDENTITY. -/
def execGetIdentity (i : MgtIface) (token : BitVec 8) (s : State) : Result :=
  .next (s.vendor i token 0x02 [] fun s =>
    s.vendorAnswer i token false 0 ([0xA8014, 0xA8018, 0xA801C, 0xA8020, 0xA8024, 0xA8028].map fun o => s.shown 16 o))

/-- GET_SENSOR: readings are free values, and so is the result for a sensor that MGT_SENSORS does not number. -/
def execGetSensor (i : MgtIface) (token : BitVec 8) (sensor : W32) (s : State) : Result :=
  .next (s.vendor i token 0x03 [sensor] fun s =>
    let (ws, s') := s.drawWords 2
    if sensor.toNat < bits (s.reg 0xB0018) 7 0 then s'.vendorAnswer i token false 0 [wordAt ws 0]
    else s'.vendorAnswer i token false (bits (wordAt ws 1) 15 0) [wordAt ws 0])

/-- HEARTBEAT. -/
def execHeartbeat (i : MgtIface) (token : BitVec 8) (word : W32) (s : State) : Result :=
  .next (s.vendor i token 0x04 [word] fun s =>
    ({ s with free := s.free + b2n s.mgt.long.isSome }).vendorAnswer i token false 0 [word, s.reg 0xB0000, s.progress])

/-! ### Long operations (R643, R660, R663, R664) -/

/-- The code of a long operation in MGT_STATUS.OP (R669). -/
def longCode : LongOp → Nat
  | .keyErase _ => 1
  | .fwCommit _ => 2
  | .fullScrub => 3

/-- A long operation starts; `ans` says whether its end is answered. -/
def State.startLong (s : State) (op : LongOp) (i : MgtIface) (token : BitVec 8) (ans : Bool) : State :=
  let s := { s with mgt := { s.mgt with long := some (op, i, token, ans) } }
  let s := s.setBits 0xB0000 0x1F000000#32 (BitVec.ofNat 32 (2 ^ 28 + longCode op * 2 ^ 24))
  if ans then s.vendorAnswer i token true 0 [] else s

/-- A long operation is over: BUSY clears, and its result follows. -/
def State.endLong (s : State) (result : Nat) (data : Words) : State :=
  match s.mgt.long with
  | none => s
  | some (_, i, token, ans) =>
    let s := { s with mgt := { s.mgt with long := none } }.setBits 0xB0000 0x1F000000#32 0
    if ans then s.vendorAnswer i token false result data else s

/-- KEY_ERASE (R660, R664). -/
def execKeyErase (i : MgtIface) (token : BitVec 8) (word : W32) (s : State) : Result :=
  .next (s.vendor i token 0x10 [word] fun s =>
    ({ s with sec := { s.sec with journal := some (.erase (bit word 0)) } }).startLong (.keyErase (bit word 0)) i token true)

/-- The commit of a part starts with its journal entry (R643 step 1); none where nothing is staged. -/
def State.startCommit (s : State) (plain : Bool) (i : MgtIface) (token : BitVec 8) (ans : Bool) : Option State :=
  (s.sec.staged plain).map fun b =>
    ({ s with sec := { s.sec with journal := some (.commit plain b 0) } }).startLong (.fwCommit plain) i token ans

/-- FW_COMMIT (R643, R660). -/
def execFwCommit (i : MgtIface) (token : BitVec 8) (word : W32) (s : State) : Result :=
  .next (s.vendor i token 0x11 [word] fun s =>
    match s.startCommit (bit word 0) i token true with
    | some s => s
    | none => s.vendorAnswer i token false mgtCmd [])

/-- FULL_SCRUB (R429, R660). -/
def execFullScrub (i : MgtIface) (token : BitVec 8) (s : State) : Result :=
  .next (s.vendor i token 0x12 [] fun s => (s.setBits 0x2000C 2 2).startLong .fullScrub i token true)

/-- What the journal asks for is carried out (R643, R664). -/
def State.runJournal (s : State) : State :=
  match s.sec.journal with
  | some (.erase all) => { s with sec := { s.sec with journal := none } }.eraseKeys all
  | some (.commit plain slot done) => { s with sec := s.sec.commit plain slot done }
  | none => s

/-- A long operation ends (R643, R660, R663). -/
def execLongOperationEnd (s : State) : Result :=
  .next (match s.mgt.long with
    | some (.fullScrub, _) => if bit (s.reg 0x2000C) 1 then s else s.endLong 0 [s.reg 0x20010]
    | some _ => s.runJournal.endLong 0 []
    | none => s)

/-! ### Debug unlock (R654 to R656) -/

/-- DEBUG_CHALLENGE (R654, R656). -/
def execDebugChallenge (i : MgtIface) (token : BitVec 8) (s : State) : Result :=
  .next (s.vendor i token 0x20 [] fun s =>
    if 8 ≤ s.sec.fails then s.vendorAnswer i token false secUnlock []
    else
      let (ws, s) := s.drawWords 16
      { s with sec := { s.sec with nonce := some (bytesOf ws) } }.vendorAnswer i token false 0 ws)

/-- Whether a DEBUG_UNLOCK request is accepted (R655). -/
def Sec.unlockOk (x : Sec) (q : Bytes) : Bool :=
  let k := leNat ((q.drop 1).take 1)
  let key := (q.drop 4).take 133
  match x.nonce with
  | none => false
  | some n => q.headD 0 = 1 && k < 4 && ! x.revoke.getLsbD k && sha512 key = Config.rootHash k &&
      ecdsaOk key (n ++ leBytes 8 x.serial.toNat ++ [q.headD 0]) ((q.drop 137).take 66) ((q.drop 203).take 66)

/-- DEBUG_UNLOCK (R655, R656, R666). -/
def execDebugUnlock (i : MgtIface) (token : BitVec 8) (request : Bytes) (s : State) : Result :=
  .next (s.vendor i token 0x21 (wordsOf 68 request) fun s =>
    let x := s.sec
    if 8 ≤ x.fails then s.vendorAnswer i token false secUnlock []
    else if x.unlockOk request then
      let s := { s with sec := { x with nonce := none, unlocked := true } }.eraseKeys false
      (s.logSec (s.reg 0xA8004).toNat 3).vendorAnswer i token false 0 []
    else
      let s := { s with sec := { x with nonce := none, fails := x.fails + 1 } }
      (if x.fails + 1 = 8 then s.alarm 4 else s).vendorAnswer i token false secUnlock [])

/-- MGT_MB_CMD is written: the command takes its request from the data words; an unknown opcode ends with MGT_CMD (R659, R660). -/
def State.unknownCmd (s : State) (token : BitVec 8) (opcode : Nat) : State :=
  s.vendor .mailbox token opcode [] fun s => s.vendorAnswer .mailbox token false mgtCmd []

/-! ### The heartbeat (R665, R666) -/

/-- TIMEOUT_MS passes without a HEARTBEAT (R665). -/
def execHbTimeout (s : State) : Result :=
  .next (if s.board.power && bits (s.reg 0xB0008) 15 0 ≠ 0 then
      (s.setBits 0xB0000 0x00800000#32 0x00800000#32).logAdd logManagement none 0 0 0 0xFFFFFFFF 0 0
    else s)

/-! ### MCTP control (R657) -/

/-- An MCTP control answer. -/
def State.mctpAnswer (s : State) (i : MgtIface) (code : MsgCode) (data : Words) : State := { s with mgtTx := s.mgtTx ++ [.mctp i code data] }

/-- Where the EID of a binding lies in MGT_EID (R669); DOE and the mailbox are no MCTP bindings. -/
def eidLsb : MgtIface → Option Nat
  | .header => some 0
  | .vdm => some 8
  | .doe => none
  | .mailbox => none

/-- An MCTP control request (R657, R663). -/
def execMctpControl (i : MgtIface) (q : MctpReq) (s : State) : Result :=
  .next (match eidLsb i with
    | none => s
    | some l =>
      if ! s.hears i then s
      else if s.mgt.long.isSome then s.mctpAnswer i .notReady []
      else match q with
      | .setEid e =>
        if e = 0 || e = 0xFF then s.mctpAnswer i .invalidData []
        else (s.setBits 0xB000C (BitVec.ofNat 32 (255 * 2 ^ l)) (BitVec.ofNat 32 (e.toNat * 2 ^ l))).mctpAnswer i .success [e.setWidth 32]
      | .getEid => s.mctpAnswer i .success [BitVec.ofNat 32 (bits (s.reg 0xB000C) (l + 7) l)]
      | .getVersion =>
        let (ws, s) := s.drawWords 1
        s.mctpAnswer i .success ws
      | .getTypes => s.mctpAnswer i .success [0, 1, 5, 6, 0x7E]
      | .other => s.mctpAnswer i .unsupported [])

end Sys2Proof.Machine
end

