-- ==== Sys2Proof/Machine/Pldm.lean ====
section
/-! DEFINITION. PLDM: types 0, 2 and 5, and the staging of firmware (R631, R641, R642, R658, R663). -/

namespace Sys2Proof.Machine

/-- A PLDM answer. -/
def State.pldmAnswer (s : State) (i : MgtIface) (code : MsgCode) (data : Words) : State := { s with mgtTx := s.mgtTx ++ [.pldm i code data] }

/-- When a PLDM command is served before READY (R631, R642): always, for staging in RECOVERY, or never. -/
inductive PldmPhase where
  | early
  | earlyUpdate
  | update
  | late
  deriving DecidableEq

/-- A PLDM request arrives over an MCTP binding (R631, R657, R663): it is served by `f`, or answered as not ready. -/
def State.pldm (s : State) (i : MgtIface) (w : PldmPhase) (f : State → State) : State :=
  if ! ((i = .header || i = .vdm) && s.hears i) then s
  else
    let ok := match w with
      | .early => s.phase ≠ 6
      | .earlyUpdate => true
      | .update => s.ready || s.phase = 6
      | .late => s.ready
    if s.mgt.long.isSome || ! ok then s.pldmAnswer i .notReady [] else f s

/-- The PLDM types and the commands of each (R658), by the numbers that the standards of PLDM give them. -/
def pldmTypes : Words := [0, 2, 5]
def pldmCommands (t : Nat) : Words :=
  match t with
  | 0 => [0x01, 0x02, 0x03, 0x04, 0x05]
  | 2 => [0x11, 0x51]
  | 5 => [0x01, 0x02, 0x10, 0x13, 0x14, 0x15, 0x16, 0x17, 0x18, 0x1A, 0x1B, 0x1D]
  | _ => []

/-! ### Types 0 and 2 (R658) -/

/-- GetTID. -/
def execGetTid (i : MgtIface) (s : State) : Result := .next (s.pldm i .early fun s => s.pldmAnswer i .success [s.mgt.tid.setWidth 32])

/-- SetTID. -/
def execSetTid (i : MgtIface) (tid : BitVec 8) (s : State) : Result :=
  .next (s.pldm i .early fun s =>
    if tid = 0 || tid = 0xFF then s.pldmAnswer i .invalidData []
    else { s with mgt := { s.mgt with tid := tid } }.pldmAnswer i .success [])

/-- GetPLDMVersion. -/
def execGetPldmVersion (i : MgtIface) (type : BitVec 8) (s : State) : Result :=
  .next (s.pldm i .early fun s =>
    if pldmTypes.contains (type.setWidth 32) then
      let (ws, s) := s.drawWords 1
      s.pldmAnswer i .success ws
    else s.pldmAnswer i .unsupported [])

/-- GetPLDMTypes. -/
def execGetPldmTypes (i : MgtIface) (s : State) : Result := .next (s.pldm i .early fun s => s.pldmAnswer i .success pldmTypes)

/-- GetPLDMCommands. -/
def execGetPldmCommands (i : MgtIface) (type : BitVec 8) (s : State) : Result :=
  .next (s.pldm i .early fun s =>
    if pldmTypes.contains (type.setWidth 32) then s.pldmAnswer i .success (pldmCommands type.toNat) else s.pldmAnswer i .unsupported [])

/-- What a sensor answers: free values, for a sensor that MGT_SENSORS lists. -/
def State.sensorAnswer (s : State) (i : MgtIface) (sensor n : Nat) : State :=
  if sensor < bits (s.reg 0xB0018) 7 0 then
    let (ws, s) := s.drawWords n
    s.pldmAnswer i .success ws
  else s.pldmAnswer i .invalidData []

/-- GetPDR. -/
def execGetPdr (i : MgtIface) (sensor : Nat) (s : State) : Result := .next (s.pldm i .early fun s => s.sensorAnswer i sensor 16)

/-- GetSensorReading. -/
def execGetSensorReading (i : MgtIface) (sensor : Nat) (s : State) : Result := .next (s.pldm i .early fun s => s.sensorAnswer i sensor 1)

/-! ### Type 5: staging (R641, R642, R658) -/

/-- QueryDeviceIdentifiers. -/
def execQueryDeviceIdentifiers (i : MgtIface) (s : State) : Result :=
  .next (s.pldm i .earlyUpdate fun s =>
    let (ws, s) := s.drawWords 1
    s.pldmAnswer i .success ws)

/-- The version in the staged slot of a part. -/
def Sec.stagedVersion (x : Sec) (plain : Bool) : W32 :=
  match x.staged plain with
  | some b => match x.image plain b with
    | some i => i.ver.setWidth 32
    | none => 0
  | none => 0

/-- GetFirmwareParameters: the active and the pending version of both parts. -/
def execGetFirmwareParameters (i : MgtIface) (s : State) : Result :=
  .next (s.pldm i .earlyUpdate fun s =>
    let x := s.sec
    s.pldmAnswer i .success [(x.version false).setWidth 32, (x.version true).setWidth 32, x.stagedVersion false, x.stagedVersion true])

/-- The update in progress replaced. -/
def State.setUpdate (s : State) (u : Option Update) : State := { s with mgt := { s.mgt with update := u } }

/-- A component the device takes: an image that fits its slot; in RECOVERY, of the hub part (R634, R642). -/
def State.takes (s : State) (c : Component) : Bool := c.bytes ≤ slotSize && 512 ≤ c.bytes && (s.phase ≠ 6 || ! c.plainPart)

/-- RequestUpdate: one update runs at a time (R641). -/
def execRequestUpdate (i : MgtIface) (s : State) : Result :=
  .next (s.pldm i .update fun s =>
    if s.mgt.update.isSome then s.pldmAnswer i .wrongState []
    else (s.setUpdate (some ⟨.learn, [], ⟨false, 0⟩, []⟩)).pldmAnswer i .success [])

/-- PassComponentTable. -/
def execPassComponentTable (i : MgtIface) (cs : List Component) (s : State) : Result :=
  .next (s.pldm i .update fun s =>
    match s.mgt.update with
    | some u =>
      if u.st ≠ .learn then s.pldmAnswer i .wrongState []
      else if ! cs.all s.takes then s.pldmAnswer i .invalidData []
      else (s.setUpdate (some { u with st := .ready, table := cs })).pldmAnswer i .success []
    | none => s.pldmAnswer i .wrongState [])

/-- The slot that a part is staged into (R641): the one that does not run; with none running, the one the boot record does not name. -/
def Sec.target (x : Sec) (plain : Bool) : Bool :=
  match x.run plain with
  | some b => ! b
  | none => ! x.named plain

/-- The content of the slot that a part is staged into; the part is staged no longer. -/
def Sec.putTarget (x : Sec) (plain : Bool) (i : Option FwImage) : Sec :=
  let y := { x with slots := x.slots.set (slotIndex plain (x.target plain)) i }
  if plain then { y with stagedPlain := none } else { y with stagedHub := none }

/-- UpdateComponent: staging starts (R641). -/
def execUpdateComponent (i : MgtIface) (c : Component) (s : State) : Result :=
  .next (s.pldm i .update fun s =>
    match s.mgt.update with
    | some u =>
      if u.st ≠ .ready then s.pldmAnswer i .wrongState []
      else if ! (u.table.contains c && s.takes c) then s.pldmAnswer i .invalidData []
      else ({ s with sec := s.sec.putTarget c.plainPart none }.setUpdate (some { u with st := .download, comp := c, data := [] })).pldmAnswer
        i .success []
    | none => s.pldmAnswer i .wrongState [])

/-- RequestFirmwareData: a piece of the image arrives (R641, R658). -/
def execRequestFirmwareData (i : MgtIface) (off : Nat) (data : Bytes) (s : State) : Result :=
  .next (s.pldm i .update fun s =>
    match s.mgt.update with
    | some u =>
      if u.st ≠ .download then s.pldmAnswer i .wrongState []
      else if u.comp.bytes < off + data.length then s.pldmAnswer i .invalidData []
      else (s.setUpdate (some { u with data := storePutRun zeroByte u.data off data })).pldmAnswer i .success []
    | none => s.pldmAnswer i .wrongState [])

/-- TransferComplete: the slot holds the image (R641). -/
def execTransferComplete (i : MgtIface) (s : State) : Result :=
  .next (s.pldm i .update fun s =>
    match s.mgt.update with
    | some u =>
      if u.st ≠ .download then s.pldmAnswer i .wrongState []
      else
        let bs := storeGetRun zeroByte u.data 0 u.comp.bytes
        let image := imageOf u.comp.plainPart bs
        ({ s.flashPut (slotAt u.comp.plainPart (s.sec.target u.comp.plainPart)) bs with sec := s.sec.putTarget u.comp.plainPart (some image) }.setUpdate (some { u with st := .verify, data := [] })).pldmAnswer i .success []
    | none => s.pldmAnswer i .wrongState [])

/-- A staged image that verifies (R641 step 2). -/
def Sec.stage (x : Sec) (plain : Bool) : Sec :=
  let b := x.target plain
  if plain then { x with stagedPlain := some b, lastPlain := true } else { x with stagedHub := some b, lastPlain := false }

/-- A hub image that verifies in RECOVERY is committed, and the ROM restarts P0 (R642). -/
def State.recover (s : State) : State :=
  let s := { s with sec := s.sec.commit false (s.sec.target false), board := { s.board with level := .cold } }
  (s.setUpdate none).setBits 0xB0000 0xE000FFFF#32 0

/-- The number of VerifyComplete, which its MANAGEMENT entry shows (R666, log entry 82). -/
def verifyCode : Nat := 0x17

/-- VerifyComplete (R637, R641, R642): where the image does not verify, FW_IMAGE or FW_ROLLBACK is raised. -/
def execVerifyComplete (i : MgtIface) (s : State) : Result :=
  .next (s.pldm i .update fun s =>
    match s.mgt.update with
    | some u =>
      let x := s.sec
      let plain := u.comp.plainPart
      if u.st ≠ .verify then s.pldmAnswer i .wrongState []
      else if x.slotOk plain (x.target plain) then
        if s.phase = 6 then (s.pldmAnswer i .success []).recover
        else ({ s with sec := x.stage plain }.setUpdate (some { u with st := .apply })).pldmAnswer i .success []
      else
        let trusted := match x.image plain (x.target plain) with
          | some m => x.trusts m
          | none => false
        let code := if trusted then fwRollback else fwImage
        ((s.setUpdate (some { u with st := .ready })).logAdd logManagement none code 0 0 verifyCode (ifaceNum i) code).pldmAnswer i .failed [BitVec.ofNat 32 code]
    | none => s.pldmAnswer i .wrongState [])

/-- ApplyComplete changes nothing that runs (R641 step 3). -/
def execApplyComplete (i : MgtIface) (s : State) : Result :=
  .next (s.pldm i .update fun s =>
    match s.mgt.update with
    | some u => if u.st = .apply then (s.setUpdate (some { u with st := .ready })).pldmAnswer i .success [] else s.pldmAnswer i .wrongState []
    | none => s.pldmAnswer i .wrongState [])

/-- ActivateFirmware is carried out as FW_COMMIT of the part staged last (R641 step 4). -/
def execActivateFirmware (i : MgtIface) (s : State) : Result :=
  .next (s.pldm i .late fun s =>
    match s.mgt.update with
    | some u =>
      if u.st ≠ .ready then s.pldmAnswer i .wrongState []
      else match (s.setUpdate none).startCommit u.comp.plainPart i 0 false with
      | some s => s.pldmAnswer i .success []
      | none => s.pldmAnswer i .failed [BitVec.ofNat 32 mgtCmd]
    | none => s.pldmAnswer i .wrongState [])

/-- The states of an update by the numbers that the standard of PLDM gives them; 0 for none. -/
def updCode : UpdState → Nat
  | .learn => 1
  | .ready => 2
  | .download => 3
  | .verify => 4
  | .apply => 5

/-- GetStatus. -/
def execPldmGetStatus (i : MgtIface) (s : State) : Result :=
  .next (s.pldm i .update fun s =>
    s.pldmAnswer i .success [BitVec.ofNat 32 (match s.mgt.update with | some u => updCode u.st | none => 0)])

/-- CancelUpdate. -/
def execCancelUpdate (i : MgtIface) (s : State) : Result :=
  .next (s.pldm i .update fun s =>
    if s.mgt.update.isSome then (s.setUpdate none).pldmAnswer i .success [] else s.pldmAnswer i .wrongState [])

end Sys2Proof.Machine
end

