-- ==== Sys2Proof/Machine/Spdm.lean ====
section
/-! DEFINITION. The SPDM responder (R631, R645 to R649, R653, R663): certificates and signatures are open functions of what they certify and sign, and
nonces are free values. -/

namespace Sys2Proof.Machine

/-- The connection of an interface. -/
def spdmRest (_ : Nat) : Spdm := ⟨0, none⟩
def State.conn (s : State) (i : MgtIface) : Spdm := storeGet spdmRest s.mgt.spdm (ifaceNum i)
def State.setConn (s : State) (i : MgtIface) (c : Spdm) : State :=
  { s with mgt := { s.mgt with spdm := storePut spdmRest s.mgt.spdm (ifaceNum i) c } }

/-- An SPDM answer. -/
def State.spdmAnswer (s : State) (i : MgtIface) (r : SpdmRsp) : State := { s with mgtTx := s.mgtTx ++ [.spdm i r] }

/-- An SPDM request arrives over MCTP or DOE (R631, R642, R647, R663): `early` says whether it is served before READY, and `stage` how far the
connection must have come (0 none, 1 version, 2 capabilities, 3 algorithms). -/
def State.spdm (s : State) (i : MgtIface) (early : Bool) (stage : Nat) (f : State → State) : State :=
  if i = .mailbox || ! s.hears i then s
  else if s.mgt.long.isSome then s.spdmAnswer i (.error .busy)
  else if s.phase = 6 || ! (s.ready || early) then s.spdmAnswer i (.error .notReady)
  else if (s.conn i).stage < stage then s.spdmAnswer i (.error .unexpected)
  else f s

/-- An answer that may be larger than the requester takes in one message (R647): the spec states no buffer size, so a free bit decides whether it is
kept for CHUNK_GET. -/
def State.large (s : State) (i : MgtIface) (r : SpdmRsp) : State :=
  let (w, s) := s.draw
  if bit w 0 then (s.setConn i { s.conn i with large := some (r, 0) }).spdmAnswer i (.error .largeResponse) else s.spdmAnswer i r

/-- Whether IDK and AK are present (R645, R653). -/
def State.identity (s : State) : Bool := s.sec.idk && s.sec.ak.isSome

/-- A request that P1 must have prepared the AK for: before that it is not served yet (R645). -/
def State.keyed (s : State) (i : MgtIface) (f : State → State) : State :=
  if s.sec.idk && s.sec.ak.isNone then s.spdmAnswer i (.error .notReady) else f s

/-- A signature made with the AK (R648) over a message, with the next free number. -/
def State.sign (s : State) (msg : Bytes) : Bytes × State :=
  (Config.akSign ((s.sec.ak.map fun a => a.key).getD 0) msg s.free, { s with free := s.free + 1 })

/-! ### The connection (R647) -/

/-- GET_VERSION: 1.2 and 1.3. -/
def execGetVersion (i : MgtIface) (s : State) : Result :=
  .next (s.spdm i true 0 fun s => (s.setConn i ⟨1, none⟩).spdmAnswer i (.version [0x12, 0x13]))

/-- GET_CAPABILITIES. -/
def execGetCapabilities (i : MgtIface) (s : State) : Result :=
  .next (s.spdm i true 1 fun s => 
    (s.setConn i { s.conn i with stage := max 2 (s.conn i).stage }).spdmAnswer i
      (.capabilities 16 [.cert, .chal, .measSig, .measFresh, .encrypt, .mac, .keyEx, .hbeat, .keyUpd, .chunk]))

/-- NEGOTIATE_ALGORITHMS. -/
def execNegotiateAlgorithms (i : MgtIface) (s : State) : Result :=
  .next (s.spdm i true 2 fun s => 
    (s.setConn i { s.conn i with stage := 3 }).spdmAnswer i (.algorithms [.ecdsaP521, .sha512, .dheSecp521r1, .aes256Gcm, .keySchedule]))

/-! ### Identity (R645, R646, R648, R653) -/

/-- The certificate chain of slot 0 (R645, R646), in the form that the standard of SPDM gives it (log entry 150): its length, the digest of the root
certificate, and the four certificates. -/
def Sec.chain (x : Sec) (a : Ak) : Bytes :=
  let certs := [Cert.root, .deviceCa, .idk x.serial, .ak a.key Config.romDigest a.hub a.plain].map Config.der
  let body := sha512 (certs.headD []) ++ certs.flatten
  leBytes 2 (body.length + 4) ++ [0, 0] ++ body

/-- The chain that slot 0 holds: none after an erase of IDK (R653). -/
def State.chain (s : State) : Option Bytes := if s.sec.idk then s.sec.ak.map s.sec.chain else none

/-- GET_DIGESTS: slot 0 is empty after an erase of IDK. -/
def execGetDigests (i : MgtIface) (s : State) : Result :=
  .next (s.spdm i true 3 fun s => s.keyed i fun s => s.spdmAnswer i (.digests (s.chain.map sha512)))

/-- GET_CERTIFICATE: a part of the chain of slot 0, the only one populated (R646). -/
def execGetCertificate (i : MgtIface) (slot off len : Nat) (s : State) : Result :=
  .next (s.spdm i true 3 fun s => s.keyed i fun s =>
    match s.chain with
    | some c =>
      if slot ≠ 0 || c.length ≤ off then s.spdmAnswer i (.error .invalidRequest)
      else s.large i (.certificate ((c.drop off).take len))
    | none => s.spdmAnswer i (.error .invalidRequest))

/-- CHALLENGE: the answer is signed over the chain, the requester's nonce and the device's own (R648, log entry 150). -/
def execChallenge (i : MgtIface) (slot : Nat) (nonce : Bytes) (s : State) : Result :=
  .next (s.spdm i true 3 fun s => s.keyed i fun s =>
    if slot ≠ 0 || nonce.length ≠ 32 then s.spdmAnswer i (.error .invalidRequest)
    else if ! s.identity then s.spdmAnswer i (.error .unspecified)
    else
      let (own, s) := s.freeBytes 32
      let (sig, s) := s.sign (sha512 (s.chain.getD []) ++ nonce ++ own)
      s.large i (.challengeAuth own sig))

/-! ### Measurements (R649) -/

/-- The digest of the image in a slot; zero where there is none. -/
def Sec.bodyDigest (x : Sec) (plain : Bool) (slot : Option Bool) : Bytes :=
  match slot with
  | some b => match x.image plain b with
    | some i => i.digest
    | none => List.replicate 64 0
  | none => List.replicate 64 0

/-- The content of a measurement block; the byte layout of blocks 4 and 5 is the model's. -/
def State.measurement (s : State) (k : Nat) : Bytes :=
  let x := s.sec
  let byte := fun n => BitVec.ofNat 8 n
  match k with
  | 1 => Config.romDigest
  | 2 => x.bodyDigest false x.hubRun
  | 3 => x.bodyDigest true x.plainRun
  | 4 => [byte x.svnHub, byte x.svnPlain, byte x.revoke.toNat, byte (b2n x.eraseAll), byte (b2n x.provisioned)]
  | 5 => [byte (b2n x.unlocked), byte x.fails]
  | _ =>
    let plain := if (x.staged x.lastPlain).isSome then x.lastPlain else ! x.lastPlain
    x.bodyDigest plain (x.staged plain)

/-- GET_MEASUREMENTS: index 0 asks for their number, which comes as the index of an empty block, and 0xFF for all of them. A signed answer is signed
over the blocks and both nonces (R648, log entry 150). -/
def execGetMeasurements (i : MgtIface) (index : BitVec 8) (signed : Bool) (nonce : Bytes) (s : State) : Result :=
  .next (s.spdm i false 3 fun s =>
    let k := index.toNat
    if 6 < k && k ≠ 255 || (signed && nonce.length ≠ 32) then s.spdmAnswer i (.error .invalidRequest)
    else if signed && ! s.identity then s.spdmAnswer i (.error .unspecified)
    else
      let ks := if k = 255 then [1, 2, 3, 4, 5, 6] else [k]
      let blocks := if k = 0 then [(6, [])] else ks.map fun j => (j, s.measurement j)
      let (own, s) := s.freeBytes 32
      let (sig, s) := s.sign (blocks.flatMap (fun b => BitVec.ofNat 8 b.1 :: b.2) ++ nonce ++ own)
      s.large i (.measurements blocks own (if signed then some sig else none)))

/-! ### Sessions (R647) -/

/-- KEY_EXCHANGE: at most four sessions are open at once. The answer is signed over the chain and both shares (R648, log entry 150). -/
def execKeyExchange (i : MgtIface) (reqSession : BitVec 16) (share : Bytes) (s : State) : Result :=
  .next (s.spdm i false 3 fun s =>
    if share.length ≠ 132 then s.spdmAnswer i (.error .invalidRequest)
    else if ! s.identity then s.spdmAnswer i (.error .unspecified)
    else if 4 ≤ s.mgt.sessions.length then s.spdmAnswer i (.error .sessionLimit)
    else
      let (w, s) := s.draw
      let id := BitVec.ofNat 32 (reqSession.toNat + bits w 15 0 * 2 ^ 16)
      let (own, s) := s.freeBytes 132
      let (sig, s) := s.sign (sha512 (s.chain.getD []) ++ share ++ own)
      ({ s with mgt := { s.mgt with sessions := s.mgt.sessions ++ [(id, false)] } }).large i (.keyExchangeRsp id own sig))

/-- The sessions without one. -/
def State.dropSession (s : State) (session : W32) : State :=
  { s with mgt := { s.mgt with sessions := s.mgt.sessions.filter fun x => x.1 ≠ session } }

/-- FINISH ends the handshake; one whose MAC is wrong ends the session. -/
def execFinish (i : MgtIface) (session : W32) (macOk : Bool) (s : State) : Result :=
  .next (s.spdm i false 3 fun s =>
    if ! s.mgt.sessions.contains (session, false) then s.spdmAnswer i (.error .invalidSession)
    else if macOk then
      ({ s with mgt := { s.mgt with sessions := s.mgt.sessions.map fun (x : W32 × Bool) => if x.1 = session then (x.1, true) else x } }).spdmAnswer i .finishRsp
    else (s.dropSession session).spdmAnswer i (.error .decryptError))

/-- A request inside a session whose handshake has ended. -/
def State.inSession (s : State) (i : MgtIface) (session : W32) (f : State → State) : State :=
  s.spdm i false 3 fun s => if s.mgt.sessions.contains (session, true) then f s else s.spdmAnswer i (.error .invalidSession)

/-- HEARTBEAT of a session. -/
def execSpdmHeartbeat (i : MgtIface) (session : W32) (s : State) : Result :=
  .next (s.inSession i session fun s => s.spdmAnswer i .heartbeatAck)

/-- KEY_UPDATE: the new keys follow the key schedule, which the state does not hold. -/
def execKeyUpdate (i : MgtIface) (session : W32) (s : State) : Result := .next (s.inSession i session fun s => s.spdmAnswer i .keyUpdateAck)

/-- END_SESSION. -/
def execEndSession (i : MgtIface) (session : W32) (s : State) : Result :=
  .next (s.inSession i session fun s => (s.dropSession session).spdmAnswer i .endSessionAck)

/-- CHUNK_GET: the next chunk of a large answer; a free bit says which chunk is the last. -/
def execChunkGet (i : MgtIface) (chunk : Nat) (s : State) : Result :=
  .next (s.spdm i false 3 fun s =>
    match (s.conn i).large with
    | none => s.spdmAnswer i (.error .unexpected)
    | some (r, k) =>
      if chunk ≠ k then s.spdmAnswer i (.error .invalidRequest)
      else
        let (w, s) := s.draw
        (s.setConn i { s.conn i with large := if bit w 0 then none else some (r, k + 1) }).spdmAnswer i (.chunk k (bit w 0) r))

end Sys2Proof.Machine
end

