-- ==== Sys2Proof/Machine/Tier.lean ====
section
/-! DEFINITION. The failure of a DDR5 channel (R397, R398). -/

namespace Sys2Proof.Machine

/-- The refusal of a remote write that its tier no longer takes (R390, R397, R526). -/
def State.refuseAck (s : State) : Ack → State
  | .link _ k => (s.bump 0x20018).sendFree k
  | .eth q _ o => s.answerNak q o

/-- What a held-back write to a failed tier ends (R397): its command stops with DDR_CHANNEL_FAIL, and the sender of a remote write is refused. -/
def State.ddrRefuse (s : State) : Writer → State
  | .cmd p id => match (s.plain p).issued.find? fun i => i.id = id with
    | some i => s.faultIssued p i (16 * p + (maskPos (bits (wordAt i.words 0) 31 16)).headD 0) ddrChannelFail
    | none => match (s.plain p).jobs.find? fun j => j.id = id with
      | some j => s.faultJob p j ddrChannelFail
      | none => s
  | .pair r => s.complete r ddrChannelFail
  | .ack n _ =>
    (s.acks.filter fun a => a.1 = n).foldl (fun s a => s.refuseAck a.2) { s with acks := s.acks.filter fun a => a.1 ≠ n }
  | .trace _ => s
  | .host => s
  | .other => s

/-- Writes to the tier that copy-on-write holds back are refused as every other request is (R397, log entry 135). -/
def State.dropDdr (s : State) : State :=
  let lost := s.cow.waiting.filter fun w => 16777216 ≤ w.page
  let s := { s with cow := { s.cow with waiting := s.cow.waiting.filter fun w => w.page < 16777216 } }
  ((lost.map fun w => w.owner).eraseDups.foldl (fun s w => s.ddrRefuse w) s).settleAcks

/-- A channel fails: no channel serves the tier any longer, the tier refuses every request from then on, the MSC drops its lines without writing them back, and
what the tier held is undefined (R397, R398, R434). -/
def execDdrChannelFail (n : Fin 8) (lost : Nat) (s : State) : Result :=
  .next (
    let dirty := s.msc.dirtyLines fun e => ddrBase ≤ e.line * 2048
    let s := (List.range 8).foldl (fun s c => s.setBits (0x38000 + 0x40 * c) 0x40000000#32 0) (s.setBits (0x38000 + 0x40 * n) 0x20000000#32 0x20000000#32)
    let s := { s with msc := s.msc.mapLines fun e => if ddrBase ≤ e.line * 2048 then none else some e, ddrLost := some lost }
    (s.logAdd logFault none ddrChannelFail 6 n dirty 0 0).dropDdr)

end Sys2Proof.Machine
end

