-- ==== Sys2Proof/Machine/Rst.lean ====
section
/-! DEFINITION. Power, bring-up and resets (R17, R24, R360, R393 to R395, R409, R565, R578, R628 to R632, R638 to R645, R664, R674, R675,
R680 to R682, R686, R691 to R697, R708). -/

namespace Sys2Proof.Machine

/-- RST_POWER_OFF, RST_THERMAL and DDR_CONFIG (R427, R697). -/
def rstPowerOff : Nat := 0x1801
def rstThermal : Nat := 0x1802
def ddrConfig : Nat := 0x0701

/-- The phase and the cause shown in MGT_STATUS (R632, R669). -/
def State.setPhase (s : State) (phase code : Nat) : State := s.setBits 0xB0000 0xE000FFFF#32 (BitVec.ofNat 32 (phase * 2 ^ 29 + code))

/-- CAUSE of RST_STATUS (R699). -/
def State.setCause (s : State) (cause : Nat) : State := s.setReg 0xC0008 (BitVec.ofNat 32 (cause * 2 ^ 28))

/-! ### Cold reset (R692, R693, R696) -/

/-- What a cold reset leaves of the security block: fuses, keys, flash and the journal. -/
def Sec.restart (x : Sec) : Sec :=
  { x with ak := none, unlocked := false, fails := 0, nonce := none, hubRun := none, plainRun := none, stagedHub := none, stagedPlain := none,
           lastPlain := false }

/-- A commit in progress, of FW_COMMIT or of P1, is cut (R643). -/
def State.cutCommit (s : State) : State :=
  if s.mgt.long.isSome || s.phase = 1 then { s with sec := s.sec.cutCommit (Config.freeWord s.free), free := s.free + 1 } else s

/-- A cold reset takes effect: P0 starts, and the timebase starts from 0 (R628, R691, R696). Writes of the flash that are under way may complete. -/
def State.coldReset (s : State) (cause : Nat) : State :=
  let s := s.flashCut.cutCommit
  { State.reset with pending := s.pending, free := s.free, plan := s.plan, sec := s.sec.restart, hostTx := s.hostTx, linkTx := s.linkTx,
                     ethTx := s.ethTx, flashTx := s.flashTx, mgtTx := s.mgtTx, flash := s.flash,
                     board := ⟨s.board.power, s.board.under, s.board.pwrEn, false, false, none, .cold⟩ }.setCause cause

/-- A cold reset is triggered (R686, R693): one in progress absorbs it; after a thermal trip it waits for the sensors. -/
def State.coldTrigger (s : State) (cause : Nat) : State :=
  if ! s.board.power || s.board.level = .cold || s.board.cold.isSome then s
  else if s.board.trip then { s with board := { s.board with cold := some cause } }
  else s.coldReset cause

/-- RST_N is held low (R692). -/
def execRstN (s : State) : Result := .next (s.coldTrigger 1)

/-- COLD is written (R692, R699). -/
def execRstCtrlCold (s : State) : Result := .next (s.regGate true 16 0xC0000 2 fun s => s.coldTrigger 2)

/-- Every sensor reads 95 °C or less (R686). -/
def execThermalResetRelease (maxTempC : BitVec 8) (s : State) : Result :=
  .next (match s.board.cold with
    | some cause => if maxTempC.toNat ≤ 95 then s.coldReset cause else s
    | none => s)

/-! ### Warm reset (R24, R409, R629, R664, R692, R693, R696) -/

/-- Registers that a warm reset keeps: MEM_COW_EPOCH, HIF_LINK_STATUS, the margins, the SEC and MGT blocks, the plain clocks, RST_WARM_COUNT,
LOG_CTX_LAST, and the registers of the PCIe function (R422, R490, R578, R608, R696, R699, log entry 134). -/
def warmKeeps (off : Nat) : Bool :=
  off = 0x20024 || off = 0x10004 || off = 0x90004 || (0x90100 ≤ off && off < 0x90200 && off % 16 = 0) || (0xA8000 ≤ off && off < 0xA9000) ||
  (0xB0000 ≤ off && off < 0xB1000) || (0xB8100 ≤ off && off < 0xB8140) || off = 0xC000C || (0xC8100 ≤ off && off < 0xC8140) ||
  (0xD0000 ≤ off && off < 0xF0000)

/-- Bits that the start of P2 keeps in other registers: FAILED of a channel (R398), ABANDONED of the snapshot or restore it cuts (R567), LIMITING and THERMAL of the clocks it keeps, and the CAUSE of
the reset in progress (R699). -/
def State.keptBits (s : State) : List (Nat × W32) :=
  (0x88000, s.reg 0x88000 &&& 0x10000000#32) :: (0xB8004, s.reg 0xB8004 &&& 0xC0000000#32) :: (0xC0008, s.reg 0xC0008 &&& 0xF0000000#32) :: (List.range 8).map fun c => (0x38000 + 0x40 * c, s.reg (0x38000 + 0x40 * c) &&& 0x20000000#32)

/-- What a warm reset does before it takes effect (R409, R565, R567, R696): a snapshot, a drain or a restore is abandoned, tracking ends, and every
dirty line of the MSC is written back. -/
def State.warmSettle (s : State) : State :=
  let s := s.restoreCut
  let s := ({ s with ckp := { s.ckp with cmd := none } }.ckpAbandon ckpAbandoned false).ckpRest.cowEnd
  { s with msc := { State.reset.msc with sets := s.msc.writeBack.sets } }

/-- The effects of the warm column of R696. -/
def State.warmClear (s : State) : State :=
  let s := s.warmSettle
  let k := s.keptBits
  let t : State := { State.reset with
    pending := s.pending, free := s.free, time := s.time, regs := s.regs.filter (fun e => warmKeeps e.1), mem := s.mem, poison := s.poison,
    msc := s.msc, ddrLost := s.ddrLost, pci := s.pci, flash := s.flash, ckp := { Ckp.idle with reqs := s.ckp.reqs },
    log := s.log, logHead := s.logHead, hostTx := s.hostTx, linkTx := s.linkTx, ethTx := s.ethTx, flashTx := s.flashTx, mgtTx := s.mgtTx,
    plan := s.plan, sec := s.sec, mgt := s.mgt, board := s.board }
  k.foldl (fun s e => s.setReg e.1 e.2) t

/-- A FULL_SCRUB in progress ends with MGT_ABORTED (R664). -/
def State.abortScrub (s : State) : State :=
  match s.mgt.long with
  | some (.fullScrub, _) => s.endLong mgtAborted []
  | _ => s

/-- P2 starts: what a warm reset clears is at its reset values. -/
def State.startP2 (s : State) : State :=
  { s.warmClear.setPhase 2 0 with board := { s.board with waiting := false } }

/-- A warm reset is triggered (R629, R693): a reset in progress absorbs it, and FAILED, RECOVERY and a thermal trip end by a cold reset only. With
the gated rails off its P2 waits for PWR_EN. -/
def State.warmTrigger (s : State) (cause : Nat) : State :=
  if ! s.board.power || s.board.level ≠ .none || s.board.trip || 6 ≤ s.phase then s
  else
    let n := s.reg 0xC000C
    let s := ((if s.board.waiting then s.warmClear else s.startP2).abortScrub).setCause cause
    if s.board.waiting then s.setReg 0xC000C (satAdd n 1)
    else { s.setReg 0xC000C (satAdd n 1) with board := { s.board with level := .warm } }

/-- WARM_N is held low (R692). -/
def execWarmN (s : State) : Result := .next (s.warmTrigger 4)

/-- WARM is written (R692, R699). -/
def execRstCtrlWarm (s : State) : Result := .next (s.regGate true 16 0xC0000 1 fun s => s.warmTrigger 5)

/-! ### Power (R675, R680 to R682, R686) -/

/-- The 54 V input rises past 48.0 V (R680): P0 starts. -/
def execPowerUp (s : State) : Result :=
  .next (if s.board.power then s
    else { s with board := { s.board with power := true, under := false } }.coldReset (if s.board.under then 3 else 0))

/-- Power is lost: all but the flash and the fuses is as a cold reset leaves it (R675, R682). -/
def State.powerDown (s : State) (under : Bool) : State :=
  if s.board.power then
    let s := if under then s.flashDone else s
    { s with board := { s.board with power := false, under := under } }.coldReset (if under then 3 else 0)
  else s

/-- The input falls below 46.0 V: writes of the flash that are under way complete (R682). -/
def execInputUndervolt (s : State) : Result := .next (s.powerDown true)

/-- The over-current trip (R675). -/
def execOvercurrentTrip (s : State) : Result := .next (s.powerDown false)

/-- PWR_EN goes high (R680): bring-up that waits at the end of P1 goes on. -/
def execPwrEnRise (s : State) : Result :=
  .next (
    let s := { s with board := { s.board with pwrEn := true } }
    if s.board.power && s.board.waiting && ! s.board.trip then s.startP2 else s)

/-- Whether the gated rails are on: from P2 on. -/
def State.rails (s : State) : Bool := s.board.power && ! s.board.trip && 2 ≤ s.phase && s.phase ≠ 6

/-- The supplies of the cages go (R680): their links go DOWN, and no module's power is within limits (R484, R486, R536). -/
def State.cagesOff (s : State) : State :=
  let s := (List.range 16).foldl (fun (s : State) k => (s.colDown k).setBits (0x78000 + 0x10 * k) 0x08000000#32 0) s
  (List.range 2).foldl (fun (s : State) p => s.setBits (0x80014 + 0x20 * p) 0x80000000#32 0) s

/-- Every context that is not IDLE halts, drains are abandoned, the MSC is written back, writes of the flash complete, and the gated rails go (R681);
FAILED stays with its cause (R632). -/
def State.railsOff (s : State) (code : Nat) : State :=
  let s := ((s.haltAll code CtxState.live).ckpAbandon ckpAbandoned true).cowEnd
  let t := s.flashDone
  let s := State.cagesOff { t with msc := t.msc.writeBack }
  if s.phase = 7 then s else s.setPhase 1 0

/-- PWR_EN falls (R681, R697). -/
def execRstPowerOff (s : State) : Result :=
  .next (
    let on := s.rails && s.phase ≠ 7
    let s := { s with board := { s.board with pwrEn := false } }
    if on then
      let s := s.railsOff rstPowerOff
      { s with board := { s.board with waiting := true } }
    else s)

/-- A junction reads 110 °C or more (R686, R697): THERM_N goes low. -/
def execRstThermal (tempC : BitVec 8) (s : State) : Result :=
  .next (if s.rails && 110 ≤ tempC.toNat then
      let s := (s.setTj tempC).railsOff rstThermal
      { s with board := { s.board with trip := true, level := .none } }
    else s)

/-- The output pins of the management header (R673, R674, R686; log entry 116): PWR_GOOD and THERM_N are released high, ALARM_N is low while an alarm is
latched, and the test port is open, its TDO free, after a debug unlock only. -/
def State.pwrGood (s : State) : Bool := s.board.power
def State.thermN (s : State) : Bool := ! s.board.trip
def State.alarmN (s : State) : Bool := bits (s.reg 0xA8004) 4 0 = 0
def State.testPort (s : State) : Bool := s.sec.unlocked

/-! ### Bring-up (R628 to R632, R638 to R645) -/

/-- Bring-up stops in RECOVERY or FAILED, where no reset is in progress any longer. -/
def State.stopBringup (s : State) (phase code : Nat) : State :=
  { s.setPhase phase code with board := { s.board with level := .none } }

/-- A boot from a slot that the boot record does not name is logged (R639, R666). -/
def State.logBoot (s : State) (plain b : Bool) : State := if b = s.sec.named plain then s else s.logSec 0x100 0

/-- P0 ends (R628, R638, R642, R674). -/
def State.endP0 (s : State) (o : BringupObs) : State :=
  let s := { s with mgt := { s.mgt with smbus := o.smbusAddr } }
  match s.sec.bootSlot false with
  | some b => ({ s with sec := { s.sec with hubRun := some b } }.logBoot false b).setPhase 1 0
  | none => s.stopBringup 6 fwImage

/-- A new AK (R645): its certificate carries the digests of the hub image that runs and of the plain image that P2 is to load. -/
def State.newAk (s : State) : State :=
  let x := s.sec
  if x.idk then
    { s with sec := { x with ak := some ⟨s.free, x.bodyDigest false x.hubRun, x.bodyDigest true (x.bootSlot true)⟩ }, free := s.free + 1 }
  else { s with sec := { x with ak := none } }

/-- P1 ends (R628, R643, R645, R664, R680). -/
def State.endP1 (s : State) (o : BringupObs) : State :=
  let s := s.runJournal
  let s := s.newAk.setReg 0xB0018 (BitVec.ofNat 32 (min 255 o.sensors))
  if s.board.pwrEn then s.startP2 else { s with board := { s.board with waiting := true } }

/-- The stored margin plan applied (R578); after a cold reset the power clocks stand at the margin clocks (R696). -/
def State.applyPlan (s : State) : State :=
  let s := (List.range 16).foldl (fun s p => s.setReg (0x90100 + 0x10 * p) (storeGet planDefault s.plan p)) s
  let s := s.setReg 0x90004 (storeGet planDefault s.plan 16)
  if s.board.level = .cold then (List.range 16).foldl (fun s p => s.setClock p (s.marginMhz p)) s else s

/-- P2 ends (R578, R628, R632, R638, R640): the code of a die that does not come up is open. -/
def State.endP2 (s : State) (o : BringupObs) : State :=
  if ! o.dieOk then
    let (w, s) := s.draw
    s.stopBringup 7 (bits w 15 0)
  else if ! o.d2dOk then s.stopBringup 7 topD2dLink
  else match s.sec.bootSlot true with
  | none => s.stopBringup 7 fwImage
  | some b =>
    let s := { s with sec := { s.sec with plainRun := some b } }.logBoot true b
    let v := s.sec.version true
    ((List.range 16).foldl (fun s m => s.setCtx m { s.ctx m with fwPlain := v, fwNext := none }) s).applyPlan.setPhase 3 0

/-- An RDIMM that the tier supports (R394). -/
def rdimmOk (r : Rdimm) : Bool := r.type = .rdimm && r.ecc && 6400 ≤ r.speed && r.ranksM1.toNat ≤ 1 && r.width.toNat ≤ 1 && r.stack.toNat ≤ 2 && 0 < r.bytes && r.bytes ≤ 256000000000

/-- Whether the eight channels hold RDIMMs as R394 asks: the RDIMM they all equal. -/
def tierRdimm (l : List (Option Rdimm)) : Option Rdimm :=
  match l with
  | some r :: rest =>
    let same := fun (x : Rdimm) => rdimmOk x && x.bytes = r.bytes && x.ranksM1 = r.ranksM1 && x.width = r.width && x.stack = r.stack
    if rest.length = 7 && same r && rest.all (fun x => match x with | some y => same y | none => false) then some r else none
  | _ => none

/-- The RDIMMs are read (R395, R434). -/
def State.readRdimms (s : State) (l : List (Option Rdimm)) : State :=
  let t := tierRdimm l
  let s := (List.range 8).foldl (fun (s : State) (c : Nat) =>
    match l.getD c none with
    | none => s
    | some r =>
      let w := 2 ^ 31 + b2n (t.isSome && ! s.ddrFailed) * 2 ^ 30 + r.ranksM1.toNat * 2 ^ 24 + r.width.toNat * 2 ^ 22 + r.stack.toNat * 2 ^ 20
      (s.setBits (0x38000 + 0x40 * c) 0xC3F00000#32 (BitVec.ofNat 32 w)).setReg (0x38004 + 0x40 * c) (BitVec.ofNat 32 (r.bytes / 2097152))) s
  match t with
  | some r => (s.setBits 0x20000 0x10000#32 0x10000#32).setPairVal 0x20004 (8 * r.bytes)
  | none =>
    let s := (s.setBits 0x20000 0x10000#32 0).setPairVal 0x20004 0
    if l.any Option.isSome then s.logAdd logFault none ddrConfig 6 12 0 0 0 else s

/-- P3 ends (R393, R395, R628, R632). -/
def State.endP3 (s : State) (o : BringupObs) : State :=
  let s := (List.range 12).foldl (fun (s : State) (n : Nat) =>
    s.setReg (0x30000 + 0x40 * n) (if o.stacksOk.getLsbD n then 0x80000000#32 else 0x40000000#32)) s
  match (List.range 12).find? fun n => ! o.stacksOk.getLsbD n with
  | some n => ((s.logAdd logFault none hbmStackFail 6 n 0 0 0).freeze 6 0).stopBringup 7 hbmStackFail
  | none => (s.readRdimms o.rdimms).setPhase 4 0

/-- A cage as P4 finds it. -/
def cageOf (l : List CageObs) (k : Nat) : CageObs := l.getD k ⟨false, 0, 0, false⟩

/-- P4 ends (R486, R536, R628): the device is READY. -/
def State.endP4 (s : State) (o : BringupObs) : State :=
  let s := (List.range 16).foldl (fun (s : State) (k : Nat) =>
    s.setCage k (cageOf o.cages k)) s
  let s := (List.range 2).foldl (fun (s : State) (p : Nat) =>
    let c := cageOf o.ethCages p
    s.setReg (0x80014 + 0x20 * p) (if c.present then BitVec.ofNat 32 (2 ^ 30 + c.tempC.toNat * 2 ^ 16) else 0)) s
  s.stopBringup 5 0

/-- A phase of bring-up ends (R628). -/
def execBringupPhaseEnd (o : BringupObs) (s : State) : Result :=
  .next (
    if ! s.board.power || s.board.trip || s.board.waiting then s
    else match s.phase with
      | 0 => s.endP0 o
      | 1 => s.endP1 o
      | 2 => s.endP2 o
      | 3 => s.endP3 o
      | 4 => s.endP4 o
      | _ => s)

/-! ### Per-context reset (R693 to R696) -/

/-- The plains of a context stop for its reset: what they had issued is abandoned (R694), their packets are settled (R704), and the references they held
are released (R356). -/
def State.resetPlain (s : State) (p : Nat) : State :=
  let s := s.setPlain p { s.plain p with pcc := .stopped, fetched := none, hold := .none, issued := [], jobs := [], resume := false }
  { s with outst := s.outst.filter fun o => o.owner.plain? ≠ some p }.sweepSlots

/-- A per-context reset starts, or is refused while the watershed does not run (R694, R695). -/
def State.startCtxReset (s : State) (m : Nat) : State :=
  if s.resetting m then s
  else if s.dbg ≠ .running then
    let c := s.ctx m
    (s.setBits 0xC0008 (BitVec.ofNat 32 (2 ^ m)) 0xFFFFFFFF#32).logAdd logCtxState (some m) 0 0 0 c.st.code c.st.code c.step.toNat
  else (s.plainsOf m).foldl (fun s p => s.resetPlain p) (s.setBits 0xC0004 (BitVec.ofNat 32 (2 ^ m)) 0xFFFFFFFF#32)

/-- A write of RST_CTX (R694, R699). -/
def State.writeRstCtx (s : State) (mask : BitVec 16) : State :=
  (List.range 16).foldl (fun s m => if mask.getLsbD m then s.startCtxReset m else s) s

/-- RST_CTX is written (R694, R695). -/
def execRstCtx (mask : BitVec 16) (s : State) : Result := .next (s.regGate true 16 0xC0004 (mask.setWidth 32) fun s => s.writeRstCtx mask)

/-- Whether a request of a context is outstanding: a write of one of its plains that waits for copy-on-write (R694). -/
def State.ctxBusy (s : State) (m : Nat) : Bool :=
  s.cow.waiting.any fun w => match w.owner with
    | .cmd p _ => s.owner p = some m
    | _ => false

/-- The registers that a per-context reset places at their reset values: the SCH group, the PLN and CORE groups of the plains, LNK_CTX_m and
CNT_TRACE_m (R696). -/
def State.ctxRegs (s : State) (m : Nat) : List (Nat × Nat) :=
  let ps := s.plainsOf m
  (offSch m 0, offSch m 0x100) :: (0x70200 + 0x10 * m, 0x70210 + 0x10 * m) :: (0xA0200 + 0x10 * m, 0xA0210 + 0x10 * m) ::
  (ps.map fun p => (offPln p 0, offPln p 0x100)) ++ ps.map fun p => (offCore (16 * p) 0, offCore (16 * p + 16) 0)

/-- A drain or a restore of a context abandoned by its reset (R565, R567). -/
def State.ckpReset (s : State) (m : Nat) : State :=
  let k := s.ckp
  if k.phase = .idle || k.ctx ≠ m then s
  else if k.draining then s.ckpAbandon ckpAbandoned false
  else s.restoreAbandon

/-- The queue pairs of a context RESET, and its memory regions invalid (R696). -/
def State.ethReset (s : State) (m : Nat) : State :=
  let mine := fun (w : W32) => ! bit w 24 && bits w 29 26 = m
  { s with qps := s.qps.filter (fun e => ! mine (wordAt e.2 0)), qpx := s.qpx.filter (fun e => ! mine (s.qpWord e.1 0)),
           mrs := s.mrs.map fun e => if bits (wordAt e.2 0) 27 24 = m then (e.1, e.2.set 0 (wordAt e.2 0 &&& 0x7FFFFFFF#32)) else e }

/-- The NET_XFER of a transfer whose queue pair is RESET ends: one that is whole completes as it would have, any other fails (R531). -/
def State.endXfer (s : State) (t : Xfer) : State :=
  match t.pair with
  | none => s
  | some r =>
    if t.failed || t.done < t.bytes then s.complete r ethQpError
    else (match (s.pair r).cur with
      | some e => s.addSig e
      | none => s).complete r 0

/-- The requester transfers on the queue pairs of a context end, so that their NET_XFER completes. -/
def State.failXfers (s : State) (m : Nat) : State :=
  ((s.qpx.filter fun e => ! bit (s.qpWord e.1 0) 24 && bits (s.qpWord e.1 0) 29 26 = m).flatMap fun e => e.2.xfers).foldl (fun s t => s.endXfer t) s

/-- A shadow set cleared by a per-context reset (R696): SEQ alone goes on, since it counts from the cold or warm reset (R594). -/
def keepSeq (r : Words) : Words := (zeroRec 0).set 3 (wordAt r 3)

/-- The effects of the per-context column of R696. -/
def State.ctxClear (s : State) (m : Nat) : State :=
  let s := s.ckpReset m
  let s := if s.cowActive && s.cowCtx = m then s.cowEnd else s
  let s := ((s.failXfers m).ethReset m).clearObjs m
  let ps := s.plainsOf m
  let rs := s.ctxRegs m
  let gone := fun (e : Nat) => rs.any fun r => r.1 ≤ e && e < r.2
  let s := s.clearChip m
  let s := { s with regs := s.regs.filter (fun e => ! gone e.1), held := s.held.filter (fun e => ! gone e.1),
                    cntLive := s.cntLive.filter (fun e => ! ps.contains (if e.1 % 4 = 3 then e.1 / 4 else e.1 / 64)),
                    cntShadow := s.cntShadow.filterMap (fun (e : Nat × Words) =>
                      if ! ps.contains (if e.1 % 4 = 3 then e.1 / 4 else e.1 / 64) then some e
                      else if wordAt e.2 3 = 0 then none else some (e.1, keepSeq e.2)),
                    eccHour := s.eccHour.filter (fun e => ! (32 ≤ e.1 && ps.contains ((e.1 - 32) / 16))),
                    plains := ps.foldl (fun st p => storePut (fun _ => Plain.reset) st p Plain.reset) s.plains }
  s.setCtx m { Ctx.reset with fwPlain := s.sec.version true }

/-- No request of the context is outstanding, and its reset takes effect (R694, R696). -/
def execCtxResetApply (m : Fin 16) (s : State) : Result :=
  .next (
    if ! s.resetting m || s.ctxBusy m then s
    else
      let c := s.ctx m
      let s := (s.ctxClear m).logAdd logCtxState (some m.val) 0 0 0 c.st.code CtxState.idle.code c.step.toNat
      s.setBits 0xC0004 (BitVec.ofNat 32 (2 ^ m.val)) 0)

end Sys2Proof.Machine
end

