-- ==== Sys2Proof/Machine/RegWrite.lean ====
section
/-! DEFINITION. Writes of registers (R8, R10 to R17, R152, R162, R200, R226 to R240, R334 to R336, R376, R377, R388, R407, R422, R426, R429, R459,
R475, R480 to R486, R491 to R493, R516 to R521, R527, R533 to R537, R555, R588, R589, R597 to R602, R609, R618, R625 to R627, R631, R659, R660, R668,
R669, R692 to R699). -/

namespace Sys2Proof.Machine

/-! ### What a write does to the bits of a register (R8, R12, R14 to R16) -/

/-- The bits after a write of a register alone: RW bits take the value, W1C bits written as 1 clear, W1S bits written as 1 set. -/
def RegRow.merge (r : RegRow) (old value : W32) : W32 :=
  let w := BitVec.ofNat 32
  (old &&& ~~~(w r.rw ||| (value &&& w r.w1c))) ||| (value &&& (w r.rw ||| w r.w1s))

/-- A register or a half of a pair written, with no further effect (R12, R14). -/
def State.putReg (s : State) (off : Nat) (value : W32) : State :=
  match regRow off with
  | none => s
  | some r =>
    let v := value &&& BitVec.ofNat 32 r.rw
    match r.half with
    | .single => s.setReg off (r.merge (s.reg off) value)
    | .lo => if r.rw = 0 then s else { s with held := storePut (fun _ => none) s.held off (some v) }
    | .hi => if r.rw = 0 then s else s.applyPair (off - 4) (s.heldLo (off - 4)) v

/-- A write with a condition: where it does not hold the device discards and records it. -/
def State.putIf (s : State) (ok : Bool) (v off : Nat) (value : W32) : State := if ok then s.putReg off value else s.discard v off value

/-- Fields of a register that a write may not change now: they keep their bits, and a write that would change them is recorded (R520, R588, R625). -/
def State.putKeep (s : State) (keep : W32) (v off : Nat) (value : W32) : State :=
  let old := s.reg off &&& keep
  let s' := s.putReg off ((value &&& ~~~keep) ||| old)
  if value &&& keep = old then s' else s'.discard v off value

/-! ### Ownership and runs -/

/-- Whether a context is IDLE, and whether any context is in a state. -/
def State.isIdle (s : State) (m : Nat) : Bool := (s.ctx m).st = .idle
def State.anyCtx (s : State) (f : CtxState → Bool) : Bool := (List.range 16).any fun m => f (s.ctx m).st

/-- A write of SCH_PLAIN_CTX (R162). -/
def State.writePlainCtx (s : State) (v p off : Nat) (value : W32) : State :=
  let old := match s.owner p with
    | some m => s.isIdle m
    | none => true
  s.putIf (old && (! bit value 31 || s.isIdle (bits value 3 0))) v off value

/-- Whether two runs of objects or handles overlap. -/
def runsMeet (a b c d : Nat) : Bool := a ≤ d && c ≤ b

/-- A write of SYN_CTX_LOCAL or SYN_CTX_GLOBAL (R240): objects `lo` up to, and not including, `hi` lie in the register's range. -/
def State.writeRun (s : State) (v m off lo hi : Nat) (value : W32) : State :=
  let first := bits value 13 0
  let last := bits value 29 16
  let base := off - 8 * m
  let clash := bit value 31 && (List.range 16).any fun k =>
    let w := s.reg (base + 8 * k)
    k ≠ m && bit w 31 && runsMeet first last (bits w 13 0) (bits w 29 16)
  s.putIf (s.isIdle m && first ≤ last && lo ≤ first && last < hi && ! clash) v off value

/-- A write of a register of a CMP context group (R377). -/
def State.writeCmpCtx (s : State) (v m off : Nat) (value : W32) : State :=
  let first := bits value 7 0
  let last := bits value 15 8
  let clash := bit value 31 && (List.range 16).any fun k =>
    let w := s.reg (0x68100 + 0x10 * k)
    k ≠ m && bit w 31 && runsMeet first last (bits w 7 0) (bits w 15 8)
  s.putIf (s.isIdle m && (off % 16 ≠ 0 || (first ≤ last && ! clash))) v off value

/-- A write of SYN_OBJ_VALUE (R200). -/
def State.writeObj (s : State) (v : Nat) (value : W32) : State :=
  let o := bits (s.reg 0x50000) 13 0
  if (List.range 16).any fun m => s.ownsObj m o && (s.ctx m).st = .running then s.discard v 0x50004 value else s.setObj o value

/-- A write of a register of a memory region (R388, R432, R527): it clears VALID in the regions of the Ethernet ports of the contexts concerned. -/
def State.writeRegion (s : State) (v n off : Nat) (value : W32) : State :=
  let ctrl := off = offRgn n 0xC
  let m := bits (s.reg (offRgn n 0xC)) 19 16
  let m' := if ctrl then bits value 19 16 else m
  if s.isIdle m && s.isIdle m' && ! (ctrl && bits value 5 4 = 3) then
    let s := s.putReg off value
    { s with mrs := s.mrs.map fun e =>
        if bits (wordAt e.2 0) 27 24 = m || bits (wordAt e.2 0) 27 24 = m' then (e.1, e.2.set 0 (wordAt e.2 0 &&& 0x7FFFFFFF#32)) else e }
  else s.discard v off value

/-! ### Registers that act -/

/-- A write of SCH_CTX_CTRL (R227). -/
def State.writeCtxCtrl (s : State) (v m off : Nat) (value : W32) : State :=
  let s := s.pauseCtx m (bit value 1)
  if bit value 0 && bit value 2 then s.discard v off value
  else if bit value 0 then (s.startCtx m).2
  else if bit value 2 then (s.disarmCtx m).2
  else s

/-- A write of a register that may change only while no context runs (R459). -/
def State.notRunning (s : State) : Bool := ! s.anyCtx fun st => st = .running

/-- A write of LNK_COL_CFG (R459, R482, R486). -/
def State.writeColCfg (s : State) (v k off : Nat) (value : W32) : State :=
  if s.notRunning && bits value 2 0 ≤ 4 then
    let s := s.putReg off value
    if bit value 31 then s else s.colDown k
  else s.discard v off value

/-- A write of COL_CTRL (R486). -/
def State.writeColCtrl (s : State) (k off : Nat) (value : W32) : State :=
  (s.colPower k (bit value 0)).setBits off (value &&& 2#32) (value &&& 2#32)

/-- A write of the control word of an MSI-X vector (R487, R491): a pending message leaves once its vector is not masked. -/
def State.writeMsix (s : State) (off : Nat) (value : W32) : State := (s.putReg off value).unmaskMsix

/-- A write of the control register of the HDM decoder (R489): committing it takes effect at once (log entry 134). -/
def State.writeHdm (s : State) (off : Nat) (value : W32) : State :=
  (s.putReg off value).setBits off 0x400#32 (if bit value 9 then 0x400#32 else 0)

/-- A write of ETH_PORT_CTRL (R536): enabling a port with a module trains it. -/
def State.writePort (s : State) (p off : Nat) (value : W32) : State :=
  let s := s.putReg off value
  s.setBits (0x80014 + 0x20 * p) 0x80000000#32 (if bit value 0 && bit (s.reg (0x80014 + 0x20 * p)) 30 then 0x80000000#32 else 0)

/-- A write of a select register of the ETH tables (R537): COMMIT acts before LOAD. -/
def State.writeSel (s : State) (t : EthTable) (value : W32) : State :=
  let i := bits value 11 0
  let s := s.setSel t i (bit (s.reg (ethSelReg t)) 29)
  let s := if bit value 31 then s.ethCommit t i else s
  if bit value 30 then s.ethLoad t i else s

/-- A write of a CKP register (R563, R588): while a snapshot or restore is in progress only AUTO_COMMIT may change. -/
def State.writeCkp (s : State) (v off : Nat) (value : W32) : State :=
  if s.ckp.phase = .idle then s.putReg off value
  else if off = 0x88004 then
    let s := s.putKeep 7 v off value
    if bit value 3 && s.ckp.phase = .prepared then s.startRoots else s
  else s.discard v off value

/-- A write of DBG_CTRL (R611, R618, R626). -/
def State.writeDbg (s : State) (v off : Nat) (value : W32) : State :=
  let s := s.setBits off 0x7C value
  let run := s.dbg = .running
  let s := if bit value 1 then s.resume v value else s
  if bit value 0 && run then s.freeze 1 0 else s

/-- A write of CNT_TRACE_CFG (R602, R625): while EN is 1 its LOG2 and REC fields keep their values; setting EN starts the ring at record 0. -/
def State.writeTraceCfg (s : State) (v m off : Nat) (value : W32) : State :=
  let on := bit (s.reg off) 31
  let s := if on then s.putKeep 0xDF v off value else s.putReg off value
  if bit value 31 && ! on then s.setReg (0xA020C + 0x10 * m) 0 else s

/-- A write of the window's base (R12, R516, R517). -/
def State.writeWinBase (s : State) (v off : Nat) (value : W32) : State := if off = 0x18008 then s.putReg off value else s.winMove v value

/-- A write of RST_CTRL (R692, R693): a cold reset is carried out before a warm one. -/
def State.writeRst (s : State) (value : W32) : State :=
  if bit value 1 then s.coldTrigger 2 else if bit value 0 then s.warmTrigger 5 else s

/-- The state that a command answers. -/
def nextOf (s : State) : Result → State
  | .next t => t
  | _ => s

/-- A write of MGT_MB_CMD: the command starts with the request in the data words (R659, R660). -/
def State.writeMbCmd (s : State) (value : W32) : State :=
  let token : BitVec 8 := BitVec.ofNat 8 (bits value 23 16)
  let word := s.reg 0xB0040
  let go := fun r => nextOf s r
  match bits value 7 0 with
  | 0x01 => go (execGetStatus .mailbox token s)
  | 0x02 => go (execGetIdentity .mailbox token s)
  | 0x03 => go (execGetSensor .mailbox token word s)
  | 0x04 => go (execHeartbeat .mailbox token word s)
  | 0x10 => go (execKeyErase .mailbox token word s)
  | 0x11 => go (execFwCommit .mailbox token word s)
  | 0x12 => go (execFullScrub .mailbox token s)
  | 0x20 => go (execDebugChallenge .mailbox token s)
  | 0x21 => go (execDebugUnlock .mailbox token ((bytesOf ((List.range 68).map fun k => s.reg (0xB0040 + 4 * k))).take 269) s)
  | op => s.unknownCmd token op

/-! ### The write itself -/

/-- A write that reaches its register. -/
def State.writeRow (s : State) (v off : Nat) (value : W32) (r : RegRow) : State :=
  let i := r.index off
  match r.kind with
  | .schCtrl => s.writeCtxCtrl v i off value
  | .plnCtrl => if bit value 0 then s.resumePlain i else s
  | .schPlainCtx => s.writePlainCtx v i off value
  | .stat => s.putIf (s.isIdle i) v off value
  | .synValue => s.writeObj v value
  | .synLocal => s.writeRun v i off 4096 16384 value
  | .synGlobal => s.writeRun v i off 0 4096 value
  | .select => { s with views := storePut zeroWord s.views (viewKey v off) (value &&& BitVec.ofNat 32 r.rw) }
  | .cmpCtx => s.writeCmpCtx v i off value
  | .cowCtrl => if bit value 0 then s.cowSet v (bits value 7 4) else s.cowClear v (bits value 7 4)
  | .cowBase => s.putIf (! (s.cowActive || s.ckp.draining)) v off value
  | .region => s.writeRegion v i off value
  | .rgnCtrl => s.writeRegion v i off value
  | .lnkId => s.putIf (! s.anyCtx fun st => st ≠ .idle) v off value
  | .lnkTopo => s.putIf s.notRunning v off value
  | .lnkRoute =>
    if s.notRunning then { s with routes := storePut zeroWord s.routes (bits (s.reg 0x7000C) 11 0) (value &&& BitVec.ofNat 32 r.rw) }
    else s.discard v off value
  | .lnkColCfg => s.writeColCfg v i off value
  | .lnkReshard => s.reshard i (value.setWidth 16)
  | .lnkCtrl => s.linkEn i (bit value 0)
  | .colCtrl => s.writeColCtrl i off value
  | .hifCfg => s.putIf ((s.pair i).st = .disabled) v off value
  | .hifCtrl => if bit value 1 then s.detachPair i else s.pairEn i (bit value 0)
  | .winCtrl => if bit (s.reg off) 0 then s.putKeep 2 v off value else s.putReg off value
  | .winBase => s.writeWinBase v off value
  | .winBias => s.winBias i value
  | .ethPortCtrl => s.writePort i off value
  | .ethGidSel => s.writeSel .gid value
  | .ethQpSel => s.writeSel .qp value
  | .ethMrSel => s.writeSel .mr value
  | .ckp => s.writeCkp v off value
  | .ckpStatus => s.writeCkp v off value
  | .dbgCtrl => s.writeDbg v off value
  | .cntCtrl => if bit value 0 then s.glbClear else s
  | .cntSel => s.captureCnt v value
  | .trace => s.putIf (! bit (s.reg (0xA0208 + 0x10 * i)) 31) v off value
  | .traceCfg => s.writeTraceCfg v i off value
  | .mbCmd => s.writeMbCmd value
  | .rstCtrl => s.writeRst value
  | .rstCtx => s.writeRstCtx (value.setWidth 16)
  | .logSel => s.captureLog v value
  | .msixCtrl => s.writeMsix off value
  | .hdmCtrl => s.writeHdm off value
  | _ => s.putReg off value

/-- Registers of the mailbox, whose first queries are served before READY (R631). -/
def mailboxReg (off : Nat) : Bool := off = 0xB0010 || (0xB0040 ≤ off && off < 0xB0150)

/-- An aligned write by a requester (R8, R491, R492, R631): an unallocated offset discards it; a register that the requester does not reach, or any but
the mailbox before READY, discards and records it. -/
def State.writeReg (s : State) (v off : Nat) (value : W32) : State :=
  match regRow off with
  | none => s
  | some r =>
    if ! s.mapOn v then s
    else if s.mayAccess v off && (s.ready || mailboxReg off) then s.writeRow v off value r
    else s.discard v off value

/-- A register is written: the plain path, whatever the register (R8, R14). -/
def execRegWrite (v off : Nat) (value : W32) (s : State) : Result := .next (if off % 4 = 0 then s.writeReg v off value else s)

/-- The _HI half of a pair is written (R12). -/
def execPairHiWrite (v off : Nat) (value : W32) (s : State) : Result :=
  .next (match regRow off with
    | some r => if r.half = .hi then s.writeReg v off value else s
    | none => s)

/-- The privileged map writes SYN_OBJ_VALUE (R200). -/
def execSynObjValueWrite (value : W32) (s : State) : Result := .next (s.regGate true 16 0x50004 value fun s => s.writeObj 16 value)

end Sys2Proof.Machine
end

