-- ==== Sys2Proof/Machine/Dispatch.lean ====
section
/-! DEFINITION. The effect of each command: one arm per row of spec/opcode_table.json. -/

namespace Sys2Proof.Machine

/-- The effect of a command on everything but the queue. -/
def exec (i : Instr) (s : State) : Host.Outcome State Fault Refusal :=
  match i with
  | .matmul p => Sys2Proof.Machine.execMatmul p s
  | .drain p => Sys2Proof.Machine.execDrain p s
  | .prefetch p => Sys2Proof.Machine.execPrefetch p s
  | .wgrad p => Sys2Proof.Machine.execWgrad p s
  | .tileLoad p => Sys2Proof.Machine.execTileLoad p s
  | .normFwd p => Sys2Proof.Machine.execNormFwd p s
  | .normBwd p => Sys2Proof.Machine.execNormBwd p s
  | .statSum p => Sys2Proof.Machine.execStatSum p s
  | .attnFwd p => Sys2Proof.Machine.execAttnFwd p s
  | .attnBwd p => Sys2Proof.Machine.execAttnBwd p s
  | .attnMerge p => Sys2Proof.Machine.execAttnMerge p s
  | .signal p => Sys2Proof.Machine.execSignal p s
  | .wait p => Sys2Proof.Machine.execWait p s
  | .stepEnd p => Sys2Proof.Machine.execStepEnd p s
  | .pageWalk p => Sys2Proof.Machine.execPageWalk p s
  | .pageWalkEntriesRead p => Sys2Proof.Machine.execPageWalkEntriesRead p s
  | .dma p => Sys2Proof.Machine.execDma p s
  | .dmaEnd p o => Sys2Proof.Machine.execDmaEnd p o s
  | .coll p => Sys2Proof.Machine.execColl p s
  | .collRankTableRead p id => Sys2Proof.Machine.execCollRankTableRead p id s
  | .collFreeMet p id => Sys2Proof.Machine.execCollFreeMet p id s
  | .collArriveMet p id => Sys2Proof.Machine.execCollArriveMet p id s
  | .collPhase1Met p id => Sys2Proof.Machine.execCollPhase1Met p id s
  | .collEnd p id => Sys2Proof.Machine.execCollEnd p id s
  | .cmpTable p => Sys2Proof.Machine.execCmpTable p s
  | .cmpTableSlotWaitEnd p => Sys2Proof.Machine.execCmpTableSlotWaitEnd p s
  | .snapshot p => Sys2Proof.Machine.execSnapshot p s
  | .issueFullEnd p => Sys2Proof.Machine.execIssueFullEnd p s
  | .streamFetchEnd p => Sys2Proof.Machine.execStreamFetchEnd p s
  | .fenceMet p => Sys2Proof.Machine.execFenceMet p s
  | .waitDone p => Sys2Proof.Machine.execWaitDone p s
  | .syncTimeout w => Sys2Proof.Machine.execSyncTimeout w s
  | .coreCmdStart p c ecc => Sys2Proof.Machine.execCoreCmdStart p c ecc s
  | .tileCmdEnd p id => Sys2Proof.Machine.execTileCmdEnd p id s
  | .specMapCheck p o => Sys2Proof.Machine.execSpecMapCheck p o s
  | .specCommit p c => Sys2Proof.Machine.execSpecCommit p c s
  | .rankExchange p o => Sys2Proof.Machine.execRankExchange p o s
  | .bgPrefetchPromote p id => Sys2Proof.Machine.execBgPrefetchPromote p id s
  | .rxWrite n pk => Sys2Proof.Machine.execRxWrite n pk s
  | .rxWriteAck n pk => Sys2Proof.Machine.execRxWriteAck n pk s
  | .rxWriteNak n pk => Sys2Proof.Machine.execRxWriteNak n pk s
  | .rxSignal n pk => Sys2Proof.Machine.execRxSignal n pk s
  | .rxSignalAck n pk => Sys2Proof.Machine.execRxSignalAck n pk s
  | .rxSignalNak n pk => Sys2Proof.Machine.execRxSignalNak n pk s
  | .rxCollWrite n pk => Sys2Proof.Machine.execRxCollWrite n pk s
  | .rxCollSignal n pk => Sys2Proof.Machine.execRxCollSignal n pk s
  | .rxStop n pk => Sys2Proof.Machine.execRxStop n pk s
  | .rxCkpt n pk => Sys2Proof.Machine.execRxCkpt n pk s
  | .flitReceive n f => Sys2Proof.Machine.execFlitReceive n f s
  | .replayTimeout n => Sys2Proof.Machine.execReplayTimeout n s
  | .linkReplayLimit n => Sys2Proof.Machine.execLinkReplayLimit n s
  | .linkRxLoss n => Sys2Proof.Machine.execLinkRxLoss n s
  | .packetSettleTimeout reqId => Sys2Proof.Machine.execPacketSettleTimeout reqId s
  | .lnkCtrlEn n en => Sys2Proof.Machine.execLnkCtrlEn n en s
  | .linkTrained n t => Sys2Proof.Machine.execLinkTrained n t s
  | .colModReset k ended => Sys2Proof.Machine.execColModReset k ended s
  | .colModPwr k on => Sys2Proof.Machine.execColModPwr k on s
  | .lnkCtxReshard v m epoch => Sys2Proof.Machine.execLnkCtxReshard v m epoch s
  | .d2dRetryLimit => Sys2Proof.Machine.execD2dRetryLimit s
  | .doorbellPoll r o => Sys2Proof.Machine.execDoorbellPoll r o s
  | .doorbellLineLost r o => Sys2Proof.Machine.execDoorbellLineLost r o s
  | .staleReread r e => Sys2Proof.Machine.execStaleReread r e s
  | .descStale r e => Sys2Proof.Machine.execDescStale r e s
  | .nop r e => Sys2Proof.Machine.execNop r e s
  | .arm r e => Sys2Proof.Machine.execArm r e s
  | .start r e => Sys2Proof.Machine.execStart r e s
  | .pause r e => Sys2Proof.Machine.execPause r e s
  | .disarm r e => Sys2Proof.Machine.execDisarm r e s
  | .syncAdd r e => Sys2Proof.Machine.execSyncAdd r e s
  | .copy r e => Sys2Proof.Machine.execCopy r e s
  | .copyComplete r o => Sys2Proof.Machine.execCopyComplete r o s
  | .netXfer r e => Sys2Proof.Machine.execNetXfer r e s
  | .netXferComplete r => Sys2Proof.Machine.execNetXferComplete r s
  | .snapRequest r e => Sys2Proof.Machine.execSnapRequest r e s
  | .ckpCommit r e => Sys2Proof.Machine.execCkpCommit r e s
  | .ckpRestore r e => Sys2Proof.Machine.execCkpRestore r e s
  | .fwActivate r e => Sys2Proof.Machine.execFwActivate r e s
  | .overflowQueuePost r => Sys2Proof.Machine.execOverflowQueuePost r s
  | .irqCoalesce r => Sys2Proof.Machine.execIrqCoalesce r s
  | .hostReadTimeout r => Sys2Proof.Machine.execHostReadTimeout r s
  | .pcieLinkDown => Sys2Proof.Machine.execPcieLinkDown s
  | .hifPairCtrlEn v r en => Sys2Proof.Machine.execHifPairCtrlEn v r en s
  | .hifPairCtrlDetach v r => Sys2Proof.Machine.execHifPairCtrlDetach v r s
  | .functionLevelReset => Sys2Proof.Machine.execFunctionLevelReset s
  | .perst => Sys2Proof.Machine.execPerst s
  | .winRead w len => Sys2Proof.Machine.execWinRead w len s
  | .winWrite w data => Sys2Proof.Machine.execWinWrite w data s
  | .winMove hi => Sys2Proof.Machine.execWinMove hi s
  | .winBiasSet w value => Sys2Proof.Machine.execWinBiasSet w value s
  | .rdmaWriteRequest q rkey va data k => Sys2Proof.Machine.execRdmaWriteRequest q rkey va data k s
  | .rdmaReadRequest q rkey va len k => Sys2Proof.Machine.execRdmaReadRequest q rkey va len k s
  | .rdmaResponse q a => Sys2Proof.Machine.execRdmaResponse q a s
  | .qpAckTimeout q => Sys2Proof.Machine.execQpAckTimeout q s
  | .cnpReceive q => Sys2Proof.Machine.execCnpReceive q s
  | .cnpRateRaise q => Sys2Proof.Machine.execCnpRateRaise q s
  | .arpRequest port ip => Sys2Proof.Machine.execArpRequest port ip s
  | .neighbourSolicitation port gid => Sys2Proof.Machine.execNeighbourSolicitation port gid s
  | .ethFrameDrop f => Sys2Proof.Machine.execEthFrameDrop f s
  | .ethSelLoad t index => Sys2Proof.Machine.execEthSelLoad t index s
  | .ethSelCommit t index => Sys2Proof.Machine.execEthSelCommit t index s
  | .schCtxCtrlStart v m pause => Sys2Proof.Machine.execSchCtxCtrlStart v m pause s
  | .schCtxCtrlDisarm v m pause => Sys2Proof.Machine.execSchCtxCtrlDisarm v m pause s
  | .schCtxCtrlPause v m pause => Sys2Proof.Machine.execSchCtxCtrlPause v m pause s
  | .plnCtrlResume v p => Sys2Proof.Machine.execPlnCtrlResume v p s
  | .synObjValueWrite value => Sys2Proof.Machine.execSynObjValueWrite value s
  | .cowActiveSet ctx => Sys2Proof.Machine.execCowActiveSet ctx s
  | .cowActiveClear ctx => Sys2Proof.Machine.execCowActiveClear ctx s
  | .cowPageCopy => Sys2Proof.Machine.execCowPageCopy s
  | .cowPoolWaitEnd slot => Sys2Proof.Machine.execCowPoolWaitEnd slot s
  | .scrubFull => Sys2Proof.Machine.execScrubFull s
  | .scrubLine addr o => Sys2Proof.Machine.execScrubLine addr o s
  | .scrubPassEnd full => Sys2Proof.Machine.execScrubPassEnd full s
  | .hbmTempHigh n tempC => Sys2Proof.Machine.execHbmTempHigh n tempC s
  | .hbmTempNormal n tempC => Sys2Proof.Machine.execHbmTempNormal n tempC s
  | .hbmStackFail n => Sys2Proof.Machine.execHbmStackFail n s
  | .ddrTempHigh n tempC => Sys2Proof.Machine.execDdrTempHigh n tempC s
  | .ddrTempNormal n tempC => Sys2Proof.Machine.execDdrTempNormal n tempC s
  | .ddrChannelFail n lost => Sys2Proof.Machine.execDdrChannelFail n lost s
  | .eccRateCheck => Sys2Proof.Machine.execEccRateCheck s
  | .ckpDrainRead => Sys2Proof.Machine.execCkpDrainRead s
  | .ckpPrepare => Sys2Proof.Machine.execCkpPrepare s
  | .ageMeasure p slackPs roCount => Sys2Proof.Machine.execAgeMeasure p slackPs roCount s
  | .pwrMeasure watts => Sys2Proof.Machine.execPwrMeasure watts s
  | .pwrClockLower => Sys2Proof.Machine.execPwrClockLower s
  | .pwrClockRaise => Sys2Proof.Machine.execPwrClockRaise s
  | .pwrFloor => Sys2Proof.Machine.execPwrFloor s
  | .thermalThrottle tempC => Sys2Proof.Machine.execThermalThrottle tempC s
  | .thermalRecover tempC => Sys2Proof.Machine.execThermalRecover tempC s
  | .rstThermal tempC => Sys2Proof.Machine.execRstThermal tempC s
  | .powerUp => Sys2Proof.Machine.execPowerUp s
  | .pwrEnRise => Sys2Proof.Machine.execPwrEnRise s
  | .rstPowerOff => Sys2Proof.Machine.execRstPowerOff s
  | .inputUndervolt => Sys2Proof.Machine.execInputUndervolt s
  | .overcurrentTrip => Sys2Proof.Machine.execOvercurrentTrip s
  | .rstN => Sys2Proof.Machine.execRstN s
  | .warmN => Sys2Proof.Machine.execWarmN s
  | .rstCtrlCold => Sys2Proof.Machine.execRstCtrlCold s
  | .rstCtrlWarm => Sys2Proof.Machine.execRstCtrlWarm s
  | .rstCtx mask => Sys2Proof.Machine.execRstCtx mask s
  | .ctxResetApply m => Sys2Proof.Machine.execCtxResetApply m s
  | .bringupPhaseEnd o => Sys2Proof.Machine.execBringupPhaseEnd o s
  | .secAlarm a => Sys2Proof.Machine.execSecAlarm a s
  | .dbgCtrlStop => Sys2Proof.Machine.execDbgCtrlStop s
  | .dbgCtrlResume => Sys2Proof.Machine.execDbgCtrlResume s
  | .scanOutDone => Sys2Proof.Machine.execScanOutDone s
  | .cntSelCapture v value => Sys2Proof.Machine.execCntSelCapture v value s
  | .cntGlbClear => Sys2Proof.Machine.execCntGlbClear s
  | .logSelCapture v seq => Sys2Proof.Machine.execLogSelCapture v seq s
  | .pairHiWrite v off value => Sys2Proof.Machine.execPairHiWrite v off value s
  | .pairLoRead v off => Sys2Proof.Machine.execPairLoRead v off s
  | .regMisaligned v off size write => Sys2Proof.Machine.execRegMisaligned v off size write s
  | .regWrite v off value => Sys2Proof.Machine.execRegWrite v off value s
  | .getStatus iface token => Sys2Proof.Machine.execGetStatus iface token s
  | .getIdentity iface token => Sys2Proof.Machine.execGetIdentity iface token s
  | .getSensor iface token sensor => Sys2Proof.Machine.execGetSensor iface token sensor s
  | .heartbeat iface token word => Sys2Proof.Machine.execHeartbeat iface token word s
  | .keyErase iface token word => Sys2Proof.Machine.execKeyErase iface token word s
  | .fwCommit iface token word => Sys2Proof.Machine.execFwCommit iface token word s
  | .fullScrub iface token => Sys2Proof.Machine.execFullScrub iface token s
  | .debugChallenge iface token => Sys2Proof.Machine.execDebugChallenge iface token s
  | .debugUnlock iface token request => Sys2Proof.Machine.execDebugUnlock iface token request s
  | .longOperationEnd => Sys2Proof.Machine.execLongOperationEnd s
  | .hbTimeout => Sys2Proof.Machine.execHbTimeout s
  | .mctpControl iface q => Sys2Proof.Machine.execMctpControl iface q s
  | .getTid iface => Sys2Proof.Machine.execGetTid iface s
  | .setTid iface tid => Sys2Proof.Machine.execSetTid iface tid s
  | .getPldmVersion iface type => Sys2Proof.Machine.execGetPldmVersion iface type s
  | .getPldmTypes iface => Sys2Proof.Machine.execGetPldmTypes iface s
  | .getPldmCommands iface type => Sys2Proof.Machine.execGetPldmCommands iface type s
  | .getPdr iface sensor => Sys2Proof.Machine.execGetPdr iface sensor s
  | .getSensorReading iface sensor => Sys2Proof.Machine.execGetSensorReading iface sensor s
  | .queryDeviceIdentifiers iface => Sys2Proof.Machine.execQueryDeviceIdentifiers iface s
  | .getFirmwareParameters iface => Sys2Proof.Machine.execGetFirmwareParameters iface s
  | .requestUpdate iface => Sys2Proof.Machine.execRequestUpdate iface s
  | .passComponentTable iface cs => Sys2Proof.Machine.execPassComponentTable iface cs s
  | .updateComponent iface c => Sys2Proof.Machine.execUpdateComponent iface c s
  | .requestFirmwareData iface off data => Sys2Proof.Machine.execRequestFirmwareData iface off data s
  | .transferComplete iface => Sys2Proof.Machine.execTransferComplete iface s
  | .verifyComplete iface => Sys2Proof.Machine.execVerifyComplete iface s
  | .applyComplete iface => Sys2Proof.Machine.execApplyComplete iface s
  | .activateFirmware iface => Sys2Proof.Machine.execActivateFirmware iface s
  | .pldmGetStatus iface => Sys2Proof.Machine.execPldmGetStatus iface s
  | .cancelUpdate iface => Sys2Proof.Machine.execCancelUpdate iface s
  | .getVersion iface => Sys2Proof.Machine.execGetVersion iface s
  | .getCapabilities iface => Sys2Proof.Machine.execGetCapabilities iface s
  | .negotiateAlgorithms iface => Sys2Proof.Machine.execNegotiateAlgorithms iface s
  | .getDigests iface => Sys2Proof.Machine.execGetDigests iface s
  | .getCertificate iface slot off len => Sys2Proof.Machine.execGetCertificate iface slot off len s
  | .challenge iface slot nonce => Sys2Proof.Machine.execChallenge iface slot nonce s
  | .getMeasurements iface index signed nonce => Sys2Proof.Machine.execGetMeasurements iface index signed nonce s
  | .keyExchange iface reqSession share => Sys2Proof.Machine.execKeyExchange iface reqSession share s
  | .finish iface session macOk => Sys2Proof.Machine.execFinish iface session macOk s
  | .spdmHeartbeat iface session => Sys2Proof.Machine.execSpdmHeartbeat iface session s
  | .keyUpdate iface session => Sys2Proof.Machine.execKeyUpdate iface session s
  | .endSession iface session => Sys2Proof.Machine.execEndSession iface session s
  | .chunkGet iface chunk => Sys2Proof.Machine.execChunkGet iface chunk s
  | .flashAccessComplete ok => Sys2Proof.Machine.execFlashAccessComplete ok s
  | .backInvalidationDone b => Sys2Proof.Machine.execBackInvalidationDone b s
  | .configurationRequest q => Sys2Proof.Machine.execConfigurationRequest s q
  | .pcieLinkUp o => Sys2Proof.Machine.execPcieLinkUp o s
  | .pfcFrame port prio pause => Sys2Proof.Machine.execPfcFrame port prio pause s
  | .thermalResetRelease maxTempC => Sys2Proof.Machine.execThermalResetRelease maxTempC s

end Sys2Proof.Machine
end

