-- ==== Sys2Proof/Machine/Step.lean ====
section
/-! DEFINITION. One step: the command at the front of the queue, or the tick of the timebase. -/

namespace Sys2Proof.Machine

/-- One step takes the command at the front of the queue and gives its effect on the state with the rest of the queue. On an
empty queue the timebase advances by one nanosecond and nothing else happens (R691; DESIGN CHOICE, log entry 7). -/
def step (s : State) : Host.Outcome State Fault Refusal :=
  match s.pending with
  | c :: rest => exec c { s with pending := rest }
  | [] => .next { s with time := s.time + 1 }

/-- The state with the command that a word of the table spells put at the front of the queue: no row of the table gives bits,
so no word spells a command and the state stays as it is. -/
def State.withFetchWord (s : State) (nbits w : Nat) : State :=
  match Sys2Proof.decodeTableWord nbits w with
  | none => s
  | some c => { s with pending := c :: s.pending }

end Sys2Proof.Machine
end

