-- ==== Sys2Proof/Safety.lean ====
section
/-! DEFINITION. What a safe run is, and the terms in which claims about the commands are stated. -/

namespace Sys2Proof.Claims

open Sys2Proof.Machine

/-- A command answers a next state: `t` is what it makes of `s`. -/
def Answers (c : Instr) (s t : State) : Prop := exec c s = .next t

/-- The SEQ of the entries of an event log, newest first, count down from the one before `head` (R605). -/
def seqDown : W32 → List Words → Prop
  | _, [] => True
  | head, e :: r => wordAt e 2 = head - 1 ∧ seqDown (head - 1) r

/-- What holds in every state of a safe run: device memory, the registers and the sync objects are in their canonical forms; a write that waits for
copy-on-write lies in its page, and none waits while tracking is off (R423, R426); a DDR5 tier that has lost its bytes has failed (R398); the event log holds at most its 16,384 entries, and their SEQ counts
down from that of the newest (R605). -/
structure Inv (s : State) : Prop where
  mem : Memory.wf s.mem
  regs : storeWf regDefault s.regs
  objs : storeWf (fun _ => (0 : W32)) s.objs
  cow : ∀ w ∈ s.cow.waiting, ∀ b ∈ w.bytes, pageOf b.1 = w.page
  idle : s.cowActive = false → s.cow.waiting = []
  lost : s.ddrFailed = false → s.ddrLost = none
  len : s.log.length ≤ 16384
  seq : seqDown s.logHead s.log

/-- A step that answers, as a relation. -/
def Steps (s t : State) : Prop := step s = .next t

/-- The PCC of plain `p` of context `m` reaches the command `ws` of TYPE `type`: the device runs, nothing holds the PCC, and no break
before issue matches (R180, R612, R619). -/
structure AtCommand (s : State) (p : Fin 16) (m : Nat) (ws : Words) (type : Nat) : Prop where
  owner   : s.owner p = some m
  fetched : (s.plain p).fetched = some ws
  type    : hdrType ws = type
  running : s.running = true
  free    : s.barred p m = false
  issuing : (s.plain p).pcc = .issuing
  hold    : (s.plain p).hold = .none
  pass    : s.breakMatch m ws false = false

/-- A plain after its PCC has issued or completed the command `ws`: it goes on to the one after it (R180). -/
def wentOn (x : Plain) (ws : Words) : Plain :=
  { x with fetched := none, hold := .none, pos := x.pos + descBytes (wordAt ws 0), lastTag := hdrTag ws, pcc := .issuing, next := x.next + 1 }

/-- The tile commands of plain `p`, each with its TYPE (R178). -/
def tileCommands (p : Fin 16) : List (Instr × Nat) :=
  [(.matmul p, 0x01), (.drain p, 0x02), (.attnFwd p, 0x03), (.attnBwd p, 0x04), (.attnMerge p, 0x05), (.normFwd p, 0x06), (.normBwd p, 0x07),
   (.wgrad p, 0x08), (.tileLoad p, 0x09), (.statSum p, 0x0A), (.prefetch p, 0x1F)]

/-- No break of DBG_BRK matches after the command `ws` (R619). -/
def NoBreakAfter (s : State) (m : Nat) (ws : Words) : Prop := s.breakMatch m ws true = false

/-- A packet of type `type` for this device arrives whole on link `n`, which is UP (R441, R443, R480). -/
structure Arrives (s : State) (n : Fin 64) (k : Packet) (type : Nat) : Prop where
  up     : s.linkState n = 2
  valid  : s.devValid = true
  listed : k.listed = true
  type   : k.ptype = type
  dst    : k.dst = s.devId
  whole  : k.crc = k.w 7

/-- No write waits for copy-on-write, and none has to (R423); a tier that works has lost nothing (R398). -/
structure NothingHeld (s : State) : Prop where
  off   : s.cowActive = false
  none  : s.cow.waiting = []
  acks  : s.acks = []
  reads : s.win.reads = []
  tier  : s.ddrFailed = false → s.ddrLost = Option.none

/-- A packet with these fields has been handed to a link, or waits for one (R445). -/
def Sent (s t : State) (f : Packet → Prop) : Prop :=
  (∃ k, t.txWait = s.txWait ++ [(k, none)] ∧ t.linkTx = s.linkTx ∧ f k) ∨
  (∃ n k, t.linkTx = s.linkTx ++ [(n, k)] ∧ t.txWait = s.txWait ∧ f k)

/-- The FAULT, DISCARD and other entries of the event log that a command appends: the newest has this KIND and CODE (R605, R606). -/
def Logged (t : State) (kind code : Nat) : Prop :=
  ∃ e r, t.log = e :: r ∧ bits (wordAt e 3) 31 24 = kind ∧ bits (wordAt e 3) 15 0 = code

/-- Pair `r` reaches the valid entry `e` of opcode `op` whose reserved fields are zero (R499, R501, R504), and can post its completion (R511, R512). -/
structure AtEntry (s : State) (r : Nat) (e : Words) (op : Nat) (masks : List (Nat × Nat)) (first : Nat) : Prop where
  reads  : s.readsEntry r = true
  valid  : s.entryValid r e = true
  op     : entryOp e = op
  zero   : anyBits e ((0, 0x7F00) :: masks) = false
  rest   : anyWords e first 16 = false
  empty  : (s.pair r).ovf = []
  none   : (s.pair r).lost = 0
  room   : ((s.pair r).cqTail - (s.pair r).cqHead).toNat < 2 ^ s.cqLog r

/-- The command `e` of pair `r` completes with a status (R501, R509, R511): SQ_HEAD goes on; words 1 to 15 of the entry, with CMD_ID and the status
first, are written to index CQ_TAIL of the completion ring, then word 0 with SEQ, PHASE and KIND CMD_DONE; an interrupt may follow, and the read of the entry at the new
SQ_HEAD (R499, R501). -/
def Completed (s t : State) (r : Nat) (e : Words) (status : Nat) : Prop :=
  t.pair r = { s.pair r with cur := none, old := false, copied := none, stale := (t.pair r).stale, sqHead := (s.pair r).sqHead + 1,
                             cqTail := (s.pair r).cqTail + 1, irq := (t.pair r).irq, irqAt := (t.pair r).irqAt } ∧
  (∀ q, q ≠ r → t.pair q = s.pair q) ∧
  ∃ (before : List HostOut) (body : Bytes) (vectors next : List HostOut),
    t.hostTx = s.hostTx ++ before ++
      [HostOut.write (s.pairVal (offHif r 0x08) + 64 * ((s.pair r).cqTail.toNat % 2 ^ s.cqLog r) + 4) body false,
       HostOut.write (s.pairVal (offHif r 0x08) + 64 * ((s.pair r).cqTail.toNat % 2 ^ s.cqLog r))
         (leBytes 4 ((s.pair r).cqTail.toNat % 2 ^ 16 * 2 ^ 16 + ((s.pair r).cqTail.toNat / 2 ^ s.cqLog r + 1) % 2 * 2 ^ 15 + 1)) false] ++ vectors ++ next ∧
    body.length = 60 ∧ body.take 8 = bytesOf [wordAt e 1, BitVec.ofNat 32 status] ∧ (vectors = [] ∨ vectors = [.msix r]) ∧
    (next = [] ∨ next = [.read (s.pairVal (offHif r 0) + 64 * (((s.pair r).sqHead + 1).toNat % 2 ^ s.sqLog r)) 64])

/-- Pair `r` can post a completion after `n` others: it is not disabled, nothing of it waits, and its ring has room (R487, R511, R512). -/
structure CanPost (s : State) (r n : Nat) : Prop where
  power : s.inD0 = true
  state : (s.pair r).st = .active ∨ (s.pair r).st = .stopped
  empty : (s.pair r).ovf = []
  none  : (s.pair r).lost = 0
  room  : ((s.pair r).cqTail + BitVec.ofNat 32 n - (s.pair r).cqHead).toNat < 2 ^ s.cqLog r

/-- A completion of KIND `kind` with a status is posted on pair `r`: words 1 to 15 are written to index CQ_TAIL of its completion ring, then word 0 with SEQ,
PHASE and KIND; an interrupt may follow (R499, R509, R511). -/
def Posted (s t : State) (r kind status : Nat) : Prop :=
  (t.pair r).cqTail = (s.pair r).cqTail + 1 ∧
  ∃ (before : List HostOut) (body : Bytes) (vectors : List HostOut),
    t.hostTx = s.hostTx ++ before ++
      [HostOut.write (s.pairVal (offHif r 0x08) + 64 * ((s.pair r).cqTail.toNat % 2 ^ s.cqLog r) + 4) body false,
       HostOut.write (s.pairVal (offHif r 0x08) + 64 * ((s.pair r).cqTail.toNat % 2 ^ s.cqLog r))
         (leBytes 4 ((s.pair r).cqTail.toNat % 2 ^ 16 * 2 ^ 16 + ((s.pair r).cqTail.toNat / 2 ^ s.cqLog r + 1) % 2 * 2 ^ 15 + kind)) false] ++ vectors ∧
    body.length = 60 ∧ (body.drop 4).take 4 = leBytes 4 status ∧ (vectors = [] ∨ vectors = [.msix r])

/-- No register changes but the pending bits of the MSI-X vectors (R491, R511). -/
def OnlyPending (s t : State) : Prop := ∀ o, o ≠ 0xE8000 → t.reg o = s.reg o

/-- The port of queue pair `q` is up, and the priority of its frames is not paused (R524, R536). -/
def EthReady (s : State) (q : Nat) : Prop :=
  s.portUp (s.qpPort q) = true ∧ (storeGet zeroNat s.pfc (s.qpPort q)).testBit (s.qpPrio q) = false

/-- The answer of a query or a command of the management core that changes nothing else (R659, R662): through MCTP or DOE it is queued; through the
mailbox the request and the answer stand in the data words, and the result and the token in MGT_MB_STATUS. -/
def VendorAnswered (s t : State) (i : MgtIface) (token : BitVec 8) (result : Nat) (data : Words) : Prop :=
  (i ≠ .mailbox → t.mgtTx = s.mgtTx ++ [.vendor i token false result data] ∧ t.regs = s.regs) ∧
  (i = .mailbox → t.mgtTx = s.mgtTx ∧ (∀ k, k < data.length → k < 68 → t.reg (0xB0040 + 4 * k) = wordAt data k) ∧
    t.reg 0xB0014 = BitVec.ofNat 32 (2 ^ 31 + token.toNat * 2 ^ 16 + result))

/-- The management core serves a command of the mailbox or of type 0x7E (R631, R642, R659, R663). -/
structure Serves (s : State) (i : MgtIface) : Prop where
  hears : s.hears i = true
  ready : s.ready = true
  long  : s.mgt.long = none
  idle  : i = .mailbox → bit (s.reg 0xB0014) 30 = false

/-- PLDM requests over an MCTP binding are served (R631, R657, R663). -/
structure PldmServed (s : State) (i : MgtIface) : Prop where
  iface : i = .header ∨ i = .vdm
  hears : s.hears i = true
  ready : s.ready = true
  long  : s.mgt.long = none

/-- SPDM requests on a connection whose algorithms are negotiated are served (R631, R647, R663). -/
structure SpdmServed (s : State) (i : MgtIface) : Prop where
  iface : i ≠ .mailbox
  hears : s.hears i = true
  ready : s.ready = true
  long  : s.mgt.long = none
  stage : 3 ≤ (s.conn i).stage

/-- A cold reset has taken effect for a cause (R691, R692, R696, R699): P0 runs, the timebase stands at 0, registers, contexts, plains, objects, device
memory and the event log are as at reset; the margin plan is kept, and so are the flash and the fuses but for a write or a commit that the reset cuts. -/
structure ColdStarted (s t : State) (cause : Nat) : Prop where
  phase  : t.phase = 0
  cause  : t.reg 0xC0008 = BitVec.ofNat 32 (cause * 2 ^ 28)
  regs   : ∀ o, o ≠ 0xC0008 → t.reg o = regDefault o
  time   : t.time = 0
  log    : t.log = []
  mem    : t.mem = []
  ctxs   : ∀ m, t.ctx m = Ctx.reset
  plains : ∀ p, t.plain p = Plain.reset
  objs   : ∀ o, t.obj o = 0
  plan   : t.plan = s.plan
  slots  : t.sec.slots = s.sec.slots
  fuses  : (∀ p k n, s.sec.journal ≠ some (.commit p k n)) →
           t.sec.boot = s.sec.boot ∧ t.sec.svnHub = s.sec.svnHub ∧ t.sec.svnPlain = s.sec.svnPlain ∧ t.sec.revoke = s.sec.revoke
  flash  : s.flashWrites = [] → t.flash = s.flash
  keys   : t.sec.ak = none ∧ t.sec.unlocked = false ∧ t.mgt.sessions = []

/-- A drain to the flash tier alone, with its slot and the SEQ of its root (R556, R562). -/
def OnFlash (k : Ckp) (slot : Nat) (seq : W32) : Prop := k.tiers = [1] ∧ k.slots = [(1, slot, seq)]

/-- The first byte of the checkpoint area of the flash (R557, R588). -/
def flashBase (s : State) : Nat := (s.reg 0x88040).toNat * 2097152

end Sys2Proof.Claims
end

