-- ==== Sys2Proof/Certificates/Slice0/Obligations.lean ====
section
/-! DEFINITION. The statements for the provers: what the rules of spec/ say each command does. -/

open Sys2Proof Sys2Proof.Machine Sys2Proof.Claims

/-- One step is the command at the front of the queue, run on the state with the rest of the queue. The model's choice (log entry 7): on an empty
queue the timebase of R691 advances by 1 ns and nothing else happens. -/
def Obligations.StepTakesFrontCommand : Prop :=
  (∀ (c : Instr) (rest : List Instr) (s : State), s.pending = c :: rest → step s = exec c { s with pending := rest }) ∧
  (∀ s : State, s.pending = [] → ∃ t, step s = .next t ∧ t.time = s.time + 1 ∧ t = { s with time := t.time })

/-- Every command answers a next state, and leaves the rest of the queue as it is: the device reports its faults in its own state. -/
def Obligations.EveryCommandAnswersAndKeepsQueue : Prop :=
  ∀ (c : Instr) (s : State), ∃ t, Answers c s t ∧ t.pending = s.pending

/-- Every step keeps the invariant: device memory, the registers and the sync objects stay in their canonical forms, writes that wait for
copy-on-write lie in their pages and wait only while tracking is on (R423, R426), a DDR5 tier that has lost its bytes has failed (R398), the event log
holds at most 16,384 entries, and their SEQ numbers are consecutive (R605). -/
def Obligations.StepKeepsMemoryAndLog : Prop :=
  ∀ s t : State, Inv s → Steps s t → Inv t

/-- The invariant holds right after reset. -/
def Obligations.ResetMeetsInvariant : Prop :=
  Inv State.reset

/-- What reset leaves: every context IDLE (R168), every tile FREE (R102), every sync object 0 (R184), every slot of the table store FREE and every
generation 0 (R346), every ring pair DISABLED (R534), the event log empty (R605). -/
def Obligations.ResetLeavesUnitsIdle : Prop :=
  (∀ m, (State.reset.ctx m).st = .idle) ∧ (∀ p, (State.reset.plain p).pcc = .idle) ∧
  (∀ basin c t, State.reset.tileOpen basin c t = false) ∧ (∀ o, State.reset.obj o = 0) ∧
  State.reset.slots = [] ∧ (∀ h, State.reset.handleGen h = 0) ∧ (∀ r, (State.reset.pair r).st = .disabled) ∧ State.reset.log = []

/-- A MATMUL, DRAIN, ATTN_FWD, ATTN_BWD, ATTN_MERGE, NORM_FWD, NORM_BWD, WGRAD, TILE_LOAD, STAT_SUM or PREFETCH that passes its issue checks is placed
in the queue of every named core, with references on the handles it names (R180, R348); the tiles of its runs become OPEN, those it releases FREE
(R100, R101); nothing else changes. One that found a queue full is placed so once there is room, without a second check. While a queue is full it is
held, and nothing else changes. -/
def Obligations.TileCommandIsIssued : Prop :=
  ∀ (p : Fin 16) (m : Nat) (ws : Words) (s : State) (i : Instr) (type : Nat),
    ((i = .matmul p ∧ type = 0x01 ∨ i = .drain p ∧ type = 0x02 ∨ i = .attnFwd p ∧ type = 0x03 ∨ i = .attnBwd p ∧ type = 0x04 ∨
          i = .attnMerge p ∧ type = 0x05 ∨ i = .normFwd p ∧ type = 0x06 ∨ i = .normBwd p ∧ type = 0x07 ∨ i = .wgrad p ∧ type = 0x08 ∨
          i = .tileLoad p ∧ type = 0x09 ∨ i = .statSum p ∧ type = 0x0A ∨ i = .prefetch p ∧ type = 0x1F) ∧
        AtCommand s p m ws type ∧ s.tileCheck p m ws (s.tileSpecOf m ws) = none ∨
      i = .issueFullEnd p ∧ s.owner p = some m ∧ (s.plain p).fetched = some ws ∧ s.running = true ∧ (s.plain p).hold = .issueFull ∧
        hdrType ws < 0x20) →
    ((∃ q ∈ maskPos (hdrMask ws), 8 ≤ s.queueLen p q) →
      ∃ t, Answers i s t ∧ t.plain p = { s.plain p with hold := .issueFull } ∧ t = { s with plains := t.plains }) ∧
    ((∀ q ∈ maskPos (hdrMask ws), s.queueLen p q < 8) → ∃ t, Answers i s t ∧
      (∃ gens, t.plain p = { wentOn (s.plain p) ws with
          issued := (s.plain p).issued ++ [⟨(s.plain p).next, ws, (s.ctx m).step, (s.plain p).pos + descBytes (wordAt ws 0), (s.plain p).prologue,
            (maskPos (hdrMask ws)).map fun q => ⟨q, .queued, [], []⟩, gens⟩] } ∧
        ∀ r ∈ (s.tileSpecOf m ws).handles, r.cmp = true → (r.handle, s.handleGen r.handle) ∈ gens) ∧
      (∀ q, q ≠ p.val → t.plain q = s.plain q) ∧
      (∀ run ∈ (s.tileSpecOf m ws).tiles, ∀ q ∈ maskPos (hdrMask ws), ∀ k, run.base ≤ k → k < run.base + run.count →
        t.tileOpen run.basin (16 * p + q) k = ! run.freed.contains (k - run.base)) ∧
      (∀ (b : Bool) (c k : Nat), (∀ run ∈ (s.tileSpecOf m ws).tiles, ∀ q ∈ maskPos (hdrMask ws),
          b ≠ run.basin ∨ c ≠ 16 * p.val + q ∨ k < run.base ∨ run.base + run.count ≤ k) → t.tileOpen b c k = s.tileOpen b c k) ∧
      t = { s with plains := t.plains, accOpen := t.accOpen, basinOpen := t.basinOpen, cntLive := t.cntLive })

/-- A tile command whose issue check fails is not issued and changes no tile (R142): its core records code, TAG and position if it holds no fault
(R146), the plain stops with the code in PLN_FAULT, and the context enters HALTED (R201, R202). -/
def Obligations.TileCommandFailingCheckHalts : Prop :=
  ∀ (p : Fin 16) (m : Nat) (ws : Words) (s : State) (i : Instr) (type code pos : Nat) (tile : Option Nat),
    (i, type) ∈ tileCommands p → AtCommand s p m ws type → s.tileCheck p m ws (s.tileSpecOf m ws) = some (code, pos, tile) →
    (s.ctx m).st = .running → s.ckp.phase = .idle → bit (s.reg 0x98000) 4 = false →
    bit (s.reg (offPln p 8)) 31 = false → bit (s.reg (offCore (16 * p + pos) 0x28)) 31 = false →
    ∃ t, Answers i s t ∧ (t.ctx m).st = .halted ∧ (t.plain p).pcc = .stopped ∧
      (t.plain p).issued = (s.plain p).issued ∧ (t.plain p).jobs = (s.plain p).jobs ∧
      t.reg (offPln p 8) = BitVec.ofNat 32 (2 ^ 31 + code) ∧ t.reg (offPln p 0xC) = hdrTag ws ∧
      t.reg (offCore (16 * p + pos) 0x28) = BitVec.ofNat 32 (2 ^ 31 + code) ∧ t.reg (offCore (16 * p + pos) 0x2C) = hdrTag ws ∧
      (∀ b c k, t.tileOpen b c k = s.tileOpen b c k) ∧ (∀ a, t.byte a = s.byte a) ∧ t.objs = s.objs ∧ t.field = s.field ∧
      t.acc = s.acc ∧ t.basin = s.basin

/-- A SIGNAL that passes its checks and whose fence is met (R190) is sent and completes: a local one adds ADD to its object (R188, R199); a global one
whose devices are all this device does so once for each (R187). The same holds for one whose fence is met later. A global SIGNAL to other devices
sends each of them, in ascending device ID, one packet of type SIGNAL on VC 0 that carries the run tag of the context, the object and ADD (R187); the
device holds each until it is settled (R704). -/
def Obligations.SignalIsSent : Prop :=
  (∀ (p : Fin 16) (m : Nat) (ws : Words) (s : State) (i : Instr),
     (i = .signal p ∧ AtCommand s p m ws 0x20 ∧ s.sgCheck m ws = none ∨
       i = .fenceMet p ∧ s.owner p = some m ∧ (s.plain p).fetched = some ws ∧ s.running = true ∧ (s.plain p).hold = .fence) →
     s.fenceMet p (sgOf ws).fence = true → NoBreakAfter s m ws →
     ((sgOf ws).glob = false ∨ (sgOf ws).count = 0 ∧ s.isSelf (sgOf ws).dev = true) →
     ∃ t, Answers i s t ∧ t.obj (sgOf ws).obj = s.obj (sgOf ws).obj + BitVec.ofNat 32 (sgOf ws).add ∧
       (∀ o, o ≠ (sgOf ws).obj → t.obj o = s.obj o) ∧ t.plain p = wentOn (s.plain p) ws ∧ (∀ q, q ≠ p.val → t.plain q = s.plain q) ∧
       t = { s with objs := t.objs, plains := t.plains, cntLive := t.cntLive }) ∧
  (∀ (p : Fin 16) (m : Nat) (ws : Words) (s : State),
     AtCommand s p m ws 0x20 → s.sgCheck m ws = none → s.fenceMet p (sgOf ws).fence = true → NoBreakAfter s m ws →
     (sgOf ws).glob = true → (∀ x ∈ (sgOf ws).devices, s.isSelf x = false) →
     ∃ t os, Answers (.signal p) s t ∧ t.outst = s.outst ++ os ∧
       os.map (fun o => o.pk.dst) = (List.range ((sgOf ws).count + 1)).map (fun i => (sgOf ws).dev + i) ∧
       (∀ o ∈ os, o.pk.ptype = 4 ∧ o.pk.vc = 0 ∧ o.pk.runTag = (s.ctx m).runTag.toNat ∧ o.pk.obj = (sgOf ws).obj ∧ o.pk.add = (sgOf ws).add) ∧
       t.plain p = wentOn (s.plain p) ws ∧ (∀ q, q ≠ p.val → t.plain q = s.plain q) ∧
       t = { s with outst := t.outst, reqNext := t.reqNext, links := t.links, linkTx := t.linkTx, plains := t.plains, cntLive := t.cntLive })

/-- A WAIT whose object is at or past TARGET_BASE + TARGET_STEP · n by less than 2^30 completes at once; one that lies behind by less than 2^30 waits;
any other faults with SYNC_RANGE and halts its context (R194). A waiting WAIT completes once its object is at or past the target by less than 2^30
(R195); it writes no object. -/
def Obligations.WaitComparesSerially : Prop :=
  (∀ (p : Fin 16) (m : Nat) (ws : Words) (s : State),
     AtCommand s p m ws 0x21 → hdrReserved ws = false → anyBits ws [(4, 0xFFFFC000), (6, 0xFFFF0000)] = false → anyWords ws 7 16 = false →
     pccHdrBad ws 1 = false → s.ownsObj m (bits (wordAt ws 4) 13 0) = true → NoBreakAfter s m ws →
     let target := wordAt ws 5 + BitVec.ofNat 32 (bits (wordAt ws 6) 15 0) * (s.ctx m).step
     let d := (s.obj (bits (wordAt ws 4) 13 0) - target).toNat
     (d < 0x40000000 → ∃ t, Answers (.wait p) s t ∧ (t.plain p).fetched = none ∧ (t.plain p).pcc = .issuing ∧
       (t.plain p).pos = (s.plain p).pos + descBytes (wordAt ws 0) ∧ t.reg (offPln p 0x14) = target ∧ t.objs = s.objs ∧ t.ctxs = s.ctxs ∧
       t = { s with plains := t.plains, regs := t.regs, cntLive := t.cntLive }) ∧
     (0xC0000000 < d → ∃ t, Answers (.wait p) s t ∧
       t.plain p = { s.plain p with pcc := .waiting, waitObj := BitVec.ofNat 14 (bits (wordAt ws 4) 13 0), target := target } ∧
       t.reg (offPln p 0x14) = target ∧ t = { s with plains := t.plains, regs := t.regs }) ∧
     (0x40000000 ≤ d → d ≤ 0xC0000000 → (s.ctx m).st = .running → s.ckp.phase = .idle → bit (s.reg 0x98000) 4 = false →
       bit (s.reg (offPln p 8)) 31 = false →
       ∃ t, Answers (.wait p) s t ∧ (t.ctx m).st = .halted ∧ (t.plain p).pcc = .stopped ∧
         t.reg (offPln p 8) = BitVec.ofNat 32 (2 ^ 31 + 0x0A01) ∧ t.objs = s.objs ∧ t.mem = s.mem)) ∧
  (∀ (p : Fin 16) (m : Nat) (ws : Words) (s : State),
     s.owner p = some m → (s.plain p).fetched = some ws → s.running = true → (s.plain p).pcc = .waiting → NoBreakAfter s m ws →
     (s.obj (s.plain p).waitObj.toNat - (s.plain p).target).toNat < 0x40000000 →
     ∃ t, Answers (.waitDone p) s t ∧ t.plain p = wentOn (s.plain p) ws ∧ (∀ q, q ≠ p.val → t.plain q = s.plain q) ∧
       t = { s with plains := t.plains, cntLive := t.cntLive })

/-- The wait limit of a WAIT whose object is still behind its target expires: the plain stops with SYNC_TIMEOUT in PLN_FAULT, the TAG of the WAIT,
that of the command after it in PLN_NEXT_TAG, and PCC_STATE 5; its context stays RUNNING, and no other plain changes (R197, R204, R235). So does the
wait of a COLL of a plain that issues, with the TAG of the COLL (R465). RESUME then starts the WAIT again (R233): where its object has reached the
target, the WAIT completes. -/
def Obligations.SyncTimeoutStopsOnePlain : Prop :=
  (∀ (p : Fin 16) (m : Nat) (s : State), s.owner p = some m → s.running = true → s.waitLimit m ≠ 0 → (s.plain p).pcc = .waiting →
    reached (s.obj (s.plain p).waitObj.toNat) (s.plain p).target = false → bit (s.reg (offPln p 8)) 31 = false →
    ∃ t, Answers (.syncTimeout ⟨p, none⟩) s t ∧ t.plain p = { s.plain p with pcc := .timedOut } ∧ (t.plain p).pcc.code = 5 ∧
      (∀ q, q ≠ p.val → t.plain q = s.plain q) ∧ t.ctxs = s.ctxs ∧ t.objs = s.objs ∧ t.mem = s.mem ∧
      t.reg (offPln p 8) = BitVec.ofNat 32 (2 ^ 31 + 0x0A04) ∧ t.reg (offPln p 0xC) = hdrTag ((s.plain p).fetched.getD []) ∧
      t.reg (offPln p 0x10) = s.tagAt p ((s.plain p).pos + descBytes (wordAt ((s.plain p).fetched.getD []) 0)) (s.plain p).prologue) ∧
  (∀ (p : Fin 16) (m id o : Nat) (j : Job) (s : State), s.owner p = some m → s.running = true → s.waitLimit m ≠ 0 → (s.plain p).pcc = .issuing →
    (s.plain p).jobs.find? (fun j => j.id = id) = some j → s.collWaits j = some o → bit (s.reg (offPln p 8)) 31 = false →
    ∃ t, Answers (.syncTimeout ⟨p, some id⟩) s t ∧ (t.plain p).pcc = .collOut ∧ (t.plain p).pcc.code = 5 ∧
      (t.plain p).jobs.find? (fun j => j.id = id) = some { j with out := true } ∧
      (∀ q, q ≠ p.val → t.plain q = s.plain q) ∧ t.ctxs = s.ctxs ∧ t.objs = s.objs ∧ t.mem = s.mem ∧
      t.reg (offPln p 8) = BitVec.ofNat 32 (2 ^ 31 + 0x0A04) ∧ t.reg (offPln p 0xC) = hdrTag j.words ∧ t.reg (offPln p 0x10) = s.tagAt p j.pos j.pro) ∧
  (∀ (p : Fin 16) (m v : Nat) (ws : Words) (s : State), s.owner p = some m → (v = m ∨ 16 ≤ v) → s.reaches v = true → s.ready = true → s.running = true →
    (s.plain p).pcc = .timedOut → (s.plain p).fetched = some ws → (∀ j ∈ (s.plain p).jobs, j.out = false) → NoBreakAfter s m ws →
    (s.obj (bits (wordAt ws 4) 13 0) - (wordAt ws 5 + BitVec.ofNat 32 (bits (wordAt ws 6) 15 0) * (s.ctx m).step)).toNat < 0x40000000 →
    ∃ t, Answers (.plnCtrlResume v p) s t ∧ (t.plain p).fetched = none ∧ (t.plain p).pcc = .issuing ∧
      (t.plain p).pos = (s.plain p).pos + descBytes (wordAt ws 0) ∧ t.objs = s.objs ∧ t.ctxs = s.ctxs ∧ t.mem = s.mem)

/-- A DMA or COLL that passes its checks is issued once it is in the queue of 16 of its engine (R417): the PCC goes on to the next command. One that
found the queue full is placed when there is room, without a second check. -/
def Obligations.EngineCommandIsQueued : Prop :=
  ∀ (p : Fin 16) (m : Nat) (ws : Words) (s : State) (i : Instr) (coll : Bool),
    (i = .dma p ∧ coll = false ∧ AtCommand s p m ws 0x25 ∧ s.dmaCheck m ws = none ∨
      i = .coll p ∧ coll = true ∧ AtCommand s p m ws 0x26 ∧ s.clCheck m ws = none ∨
      i = .issueFullEnd p ∧ s.owner p = some m ∧ (s.plain p).fetched = some ws ∧ s.running = true ∧ (s.plain p).hold = .issueFull ∧
        (coll = false ∧ hdrType ws = 0x25 ∨ coll = true ∧ hdrType ws = 0x26)) →
    s.jobRoom p = true →
    ∃ t, Answers i s t ∧ t.plain p = { wentOn (s.plain p) ws with
        jobs := (s.plain p).jobs ++ [⟨(s.plain p).next, ws, (s.ctx m).step, (s.plain p).pos + descBytes (wordAt ws 0), (s.plain p).prologue, coll, false,
          .queued, [], [], false⟩] } ∧
      (∀ q, q ≠ p.val → t.plain q = s.plain q) ∧ t = { s with plains := t.plains, cntLive := t.cntLive }

/-- A PAGE_WALK that passes its checks reads its entries; when they have arrived and can be used, it emits one DMA for each page, in entry order: a
copy of the page, or zeros for a null page (R281, R283, R284, R286). -/
def Obligations.PageWalkEmitsOneDmaPerPage : Prop :=
  (∀ (p : Fin 16) (m : Nat) (ws : Words) (s : State), AtCommand s p m ws 0x23 → pwCheck ws = none →
    ∃ t, Answers (.pageWalk p) s t ∧ t.plain p = { s.plain p with hold := .walk } ∧ t = { s with plains := t.plains }) ∧
  (∀ (p : Fin 16) (m : Nat) (ws : Words) (s : State) (d : Pw), s.owner p = some m → (s.plain p).fetched = some ws → s.running = true →
    (s.plain p).hold = .walk → d = pwOf ws → pwCheck ws = none → s.readFault m [(d.table + 8 * d.first, 8 * d.count)] = none →
    (∀ q < d.count, leNat (s.read (d.table + 8 * d.first + 8 * q) 8) % 4096 / 2 = 0) →
    ∃ t js, Answers (.pageWalkEntriesRead p) s t ∧ (t.plain p).jobs = (s.plain p).jobs ++ js ∧ js.length = d.count ∧
      (∀ (q : Nat) (j : Job) (e : Nat), js[q]? = some j → e = leNat (s.read (d.table + 8 * d.first + 8 * q) 8) →
        j.id = (s.plain p).next + q ∧ j.coll = false ∧ j.moved = false ∧ (dmOf j.words).mode = (if e % 2 = 1 then 1 else 3) ∧
        (dmOf j.words).src.base = (if e % 2 = 1 then e / 4096 * 4096 else 0) ∧ (dmOf j.words).bytes = d.bytes ∧
        (dmOf j.words).dst.field = true ∧ (dmOf j.words).dst.base = d.dest + (if d.mcast then q else q % d.per) * d.bytes ∧
        (dmOf j.words).mask = (if d.mcast then d.mask else 2 ^ (maskPos d.mask).getD (q / d.per) 0)) ∧
      (t.plain p).fetched = none ∧ (t.plain p).hold = .none ∧ t = { s with plains := t.plains, cntLive := t.cntLive, msc := t.msc })

/-- A CMP_TABLE that passes its checks, can read its source and finds a free slot installs its table (R355): the slot of the next generation of the
handle holds MODE and the table (the 16 bytes of SRC for a LOAD, which R353 has checked) and is the CURRENT one, the handle's generation is that one,
and the PCC goes on. One that waited for a slot does the same, and one that waited for the writes of its table goes on once they are applied (R423).
Stated for HIST_CLEAR = 0 and OUT = 0, which write no memory. -/
def Obligations.CmpTableInstallsNextGeneration : Prop :=
  (∀ (p : Fin 16) (m : Nat) (ws : Words) (s : State) (i : Instr) (table : Bytes),
    (i = .cmpTable p ∧ AtCommand s p m ws 0x24 ∧ s.ctCheck m ws = none ∧ (ctOf ws).source = 1 ∧ s.readFault m [((ctOf ws).src, 16)] = none ∧
        table = s.read (ctOf ws).src 16 ∧ tableOk (ctOf ws).c12 table = true ∨
      i = .cmpTableSlotWaitEnd p ∧ s.owner p = some m ∧ (s.plain p).fetched = some ws ∧ s.running = true ∧ (s.plain p).hold = .tableSlot ∧
        table = (s.plain p).table) →
    (ctOf ws).clear = false → (ctOf ws).out = 0 → s.writesWait p (s.plain p).next = false → NoBreakAfter s m ws →
    s.sweepSlots.slotReady (ctOf ws).handle ((s.handleGen (ctOf ws).handle + 1) % 16) = true →
    ∃ t, Answers i s t ∧ t.handleGen (ctOf ws).handle = (s.handleGen (ctOf ws).handle + 1) % 16 ∧
      t.currentSlot (ctOf ws).handle = some ⟨(ctOf ws).handle, (s.handleGen (ctOf ws).handle + 1) % 16, (ctOf ws).c12, table, true⟩ ∧
      (∀ h, h ≠ (ctOf ws).handle → t.handleGen h = s.handleGen h ∧ t.currentSlot h = s.currentSlot h) ∧
      (∀ x ∈ t.slots, x.handle = (ctOf ws).handle → x.gen ≠ (s.handleGen (ctOf ws).handle + 1) % 16 → x.current = false) ∧
      t.plain p = wentOn (s.plain p) ws ∧ (∀ q, q ≠ p.val → t.plain q = s.plain q) ∧ (∀ a, t.byte a = s.byte a) ∧
      t.regs = s.regs ∧ t.objs = s.objs ∧ t.ctxs = s.ctxs) ∧
  (∀ (p : Fin 16) (m : Nat) (ws : Words) (s : State), s.owner p = some m → (s.plain p).fetched = some ws → s.running = true →
    (s.plain p).hold = .tableWrites → s.writesWait p (s.plain p).next = false → NoBreakAfter s m ws →
    ∃ t, Answers (.cmpTableSlotWaitEnd p) s t ∧ t.plain p = wentOn (s.plain p) ws ∧ (∀ q, q ≠ p.val → t.plain q = s.plain q) ∧
      t = { s with plains := t.plains, cntLive := t.cntLive })

/-- SNAPSHOT completes when its request is recorded (R541): the tiers it names are added to those requested for the next step boundary (R542). The
next command of a plain's STEP stream arrives as LEN times 64 bytes of the stream at the place the PCC has reached (R163, R178); where its bytes can
be read and its TYPE is assigned, nothing but the fetched command changes. -/
def Obligations.SnapshotAndStreamFetchAdvance : Prop :=
  (∀ (p : Fin 16) (m : Nat) (ws : Words) (s : State),
     AtCommand s p m ws 0x27 → hdrReserved ws = false → anyBits ws [(4, 0xFFFFFFF8)] = false → anyWords ws 5 16 = false →
     pccHdrBad ws 1 = false → bits (wordAt ws 4) 2 0 ≠ 0 → NoBreakAfter s m ws →
     ∃ t, Answers (.snapshot p) s t ∧ t.ctx m = { s.ctx m with snap := (s.ctx m).snap ||| BitVec.ofNat 3 (bits (wordAt ws 4) 2 0), deferred := false } ∧
       (∀ k, k ≠ m → t.ctx k = s.ctx k) ∧ t.plain p = wentOn (s.plain p) ws ∧ (∀ q, q ≠ p.val → t.plain q = s.plain q) ∧
       t = { s with ctxs := t.ctxs, plains := t.plains, cntLive := t.cntLive }) ∧
  (∀ (p : Fin 16) (m : Nat) (s : State) (st : Stream) (n : Nat),
     s.owner p = some m → s.running = true → s.barred p m = false → (s.plain p).pcc = .issuing → (s.plain p).hold = .none →
     (s.plain p).fetched = none → (s.plain p).prologue = false → s.streamOf p true = some st → (s.plain p).pos < st.bytes →
     n = 64 * max 1 (hdrLen (wordsOf 16 (s.read (st.addr + (s.plain p).pos) 64))) → (s.plain p).pos + n ≤ st.bytes →
     s.readFault m [(st.addr + (s.plain p).pos, 64)] = none → s.readFault m [(st.addr + (s.plain p).pos, n)] = none →
     typeKnown (hdrType (wordsOf (n / 4) (s.read (st.addr + (s.plain p).pos) n))) = true →
     ∃ t, Answers (.streamFetchEnd p) s t ∧
       t.plain p = { s.plain p with fetched := some (wordsOf (n / 4) (s.read (st.addr + (s.plain p).pos) n)) } ∧
       (∀ q, q ≠ p.val → t.plain q = s.plain q) ∧ t = { s with plains := t.plains, msc := t.msc })

/-- A PCC executes the STEP_END at the end of its STEP stream once nothing of its plain is outstanding (R174, R176). While another plain of the
context has not reached it, the PCC waits in PCC_STATE STEP_END and the step does not change (R173). When the last PCC of a RUNNING context executes
its STEP_END, the step boundary is reached: with no snapshot, verification, activation or layout change waiting, no trace and no break, STEP and the
count of steps grow by 1. The context then is DONE if that completes STEP_COUNT steps, else PAUSED if PAUSE is set, else RUNNING with every PCC at the
first command of its STEP stream (R175). -/
def Obligations.StepEndReachesBoundary : Prop :=
  (∀ (p : Fin 16) (m : Nat) (ws : Words) (s : State) (q : Nat),
     AtCommand s p m ws 0x22 → s.stepEndCheck p ws = none → s.settled p = true → NoBreakAfter s m ws →
     q ∈ s.plainsOf m → q ≠ p.val → (s.plain q).pcc ≠ .stepEnd →
     ∃ t, Answers (.stepEnd p) s t ∧ t.plain p = { wentOn (s.plain p) ws with pcc := .stepEnd } ∧ (∀ q, q ≠ p.val → t.plain q = s.plain q) ∧
       t = { s with plains := t.plains, cntLive := t.cntLive }) ∧
  (∀ (p : Fin 16) (m : Nat) (ws : Words) (s : State),
     AtCommand s p m ws 0x22 → s.stepEndCheck p ws = none → s.settled p = true →
     (∀ q ∈ s.plainsOf m, q ≠ p.val → (s.plain q).pcc = .stepEnd) → (s.ctx m).st = .running → s.ckp.phase = .idle →
     (s.ctx m).snap = 0 → (s.ctx m).verify = none → (s.ctx m).fwNext = none → (s.ctx m).pending = none →
     bit (s.reg (0xA0208 + 0x10 * m)) 31 = false → bit (s.reg 0x98040) 31 = false →
     ∃ t, Answers (.stepEnd p) s t ∧ (t.ctx m).step = (s.ctx m).step + 1 ∧ (t.ctx m).stepsDone = (s.ctx m).stepsDone + 1 ∧
       (t.ctx m).st = (if (s.ctx m).stepCount ≠ 0 ∧ (s.ctx m).stepsDone + 1 = (s.ctx m).stepCount then .done
         else if (s.ctx m).pause = true then .paused else .running) ∧
       ((t.ctx m).st = .running → ∀ q ∈ s.plainsOf m, (t.plain q).pcc = .issuing ∧ (t.plain q).pos = 0 ∧ (t.plain q).prologue = false) ∧
       ((t.ctx m).st ≠ .running → ∀ q ∈ s.plainsOf m, (t.plain q).pcc = .idle) ∧
       (∀ k, k ≠ m → t.ctx k = s.ctx k) ∧ t.objs = s.objs ∧ (∀ a, t.byte a = s.byte a))

/-- The oldest command queued in a core starts once its path is free and nothing it depends on is in use (R93, R94). A MATMUL with SPEC = 0 that meets
no fault leaves in every element of its tiles the value of R128, over the k-steps in the command's order. It changes no other tile, no memory, and no
byte of Field outside its staging regions. Corrected errors of the core are counted (R98). -/
def Obligations.MatmulWritesItsTiles : Prop :=
  ∀ (p c : Fin 16) (m n : Nat) (s : State) (i : Issued) (d : Mm),
    s.oldest p c = some i → s.owner p = some m → s.running = true → s.pathBusy p c i = false →
    s.footBusy p c i.id (tileFoot i.words) = false → hdrType i.words = 0x01 → d = mmOf i.words → d.spec = 0 →
    d.base + d.mt * d.nt ≤ tileLimit d.dest → d.fieldBad = false → s.effFault m (s.tileStart m (16 * p + c) (rankOf i.words c) i) = none →
    ∃ t, Answers (.coreCmdStart p c ⟨n, false⟩) s t ∧
      (∀ tr < d.mt, ∀ tc < d.nt, ∀ r < 64, ∀ j < 64, t.tileElem d.dest (16 * p + c) (d.base + tr * d.nt + tc) (64 * r + j) =
        s.mmElem (16 * p + c) d (rankOf i.words c) i.gens (fun _ _ => false)
          (if d.clear then f32zero else s.tileElem d.dest (16 * p + c) (d.base + tr * d.nt + tc) (64 * r + j)) (64 * tr + r) (64 * tc + j)) ∧
      (∀ (b : Bool) (k tile e : Nat), e < 4096 → tile < tileLimit b →
        (b ≠ d.dest ∨ k ≠ 16 * p.val + c.val ∨ tile < d.base ∨ d.base + d.mt * d.nt ≤ tile) → t.tileElem b k tile e = s.tileElem b k tile e) ∧
      (∀ k off, off < 2 ^ 23 →
        (k ≠ 16 * p.val + c.val ∨
          (∀ r ∈ [stageRange d.a d.stageA d.slotA, stageRange d.b d.stageB d.slotB], off < r.1 ∨ r.1 + r.2 ≤ off)) →
        t.fieldRead k off 1 = s.fieldRead k off 1) ∧
      (∀ a, t.byte a = s.byte a) ∧ t.objs = s.objs ∧ t.ctxs = s.ctxs ∧
      (∀ o, t.reg o = if o = offCore (16 * p + c) 0x34 then satAdd (s.reg o) n else s.reg o)

/-- The check of a predictive MATMUL recomputes, over every k-step with no block skipped, the tiles of each block row with a skipped block whose
current bit is 0 (R220), keeps every other tile, and leaves the command to commit. Corrected errors of the core are counted (R98). A checked
predictive MATMUL commits, once every core of it has checked: each current-map bit of the blocks of A that the core used becomes the bit of the
prediction map, every other bit of the map keeps its value (R221), and SPEC_REPLAY_TILES is added to PLN_SPEC_REPLAYS (R223). -/
def Obligations.SpecMapIsCheckedAndCommitted : Prop :=
  (∀ (p c : Fin 16) (m n : Nat) (s : State) (i : Issued) (run : CoreRun) (d : Mm),
     s.runIn p c .started = some (i, run) → s.owner p = some m → s.running = true → hdrType i.words = 0x01 → d = mmOf i.words →
     d.base + d.mt * d.nt ≤ tileLimit d.dest →
     s.effFault m (s.mmCheck m (16 * p + c) (rankOf i.words c) i.words i.gens run.keep run.ctr) = none →
     ∃ t, Answers (.specMapCheck p ⟨c, ⟨n, false⟩⟩) s t ∧
       (∀ tr < d.mt, ∀ tc < d.nt, ∀ r < 64, ∀ j < 64,
         t.tileElem d.dest (16 * p + c) (d.base + tr * d.nt + tc) (64 * r + j) =
           if ∃ w ∈ run.keep, bit w 31 = false ∧ w.toNat % 8 = tr ∧
             s.mapBit (d.zmap + d.mapBytes) d.a (d.aBlock (rankOf i.words c) (w.toNat / 8) (w.toNat % 8)) = false
           then s.mmElem (16 * p + c) d (rankOf i.words c) i.gens (fun _ _ => false) f32zero (64 * tr + r) (64 * tc + j)
           else s.tileElem d.dest (16 * p + c) (d.base + tr * d.nt + tc) (64 * r + j)) ∧
       (∀ (b : Bool) (k tile e : Nat), e < 4096 → tile < tileLimit b →
         (b ≠ d.dest ∨ k ≠ 16 * p.val + c.val ∨ tile < d.base ∨ d.base + d.mt * d.nt ≤ tile) → t.tileElem b k tile e = s.tileElem b k tile e) ∧
       (∀ a, t.byte a = s.byte a) ∧ t.objs = s.objs ∧ t.ctxs = s.ctxs ∧
       (∀ o, t.reg o = if o = offCore (16 * p + c) 0x34 then satAdd (s.reg o) n else s.reg o) ∧
       (∃ i' ∈ (t.plain p).issued, i'.id = i.id ∧ ∃ r' ∈ i'.runs, r'.pos = c.val ∧ r'.st = .checked)) ∧
  (∀ (p c : Fin 16) (m : Nat) (s : State) (i : Issued) (run : CoreRun) (d : Mm) (r : Nat),
     s.runIn p c .checked = some (i, run) → i.allChecked = true → s.owner p = some m → s.running = true → d = mmOf i.words → r = rankOf i.words c →
     s.writeFault m (s.mmCommit r i.words) = none → Inv s →
     ∃ t, Answers (.specCommit p c) s t ∧
       (∀ u ∈ d.used r, t.mapBit d.zmap d.a (d.aBlock r u.1 u.2) = s.mapBit (d.zmap + d.mapBytes) d.a (d.aBlock r u.1 u.2)) ∧
       (∀ a k, (∀ u ∈ d.used r, a ≠ d.zmap + ((d.aBlock r u.1 u.2).1 * d.a.stride + (d.aBlock r u.1 u.2).2) / 8 ∨
           k ≠ ((d.aBlock r u.1 u.2).1 * d.a.stride + (d.aBlock r u.1 u.2).2) % 8) → (t.byte a).getLsbD k = (s.byte a).getLsbD k) ∧
       (∀ o, t.reg o = if o = offPln p 0x18 then satAdd (s.reg o) (wordAt run.ctr 8).toNat else s.reg o) ∧
       t.acc = s.acc ∧ t.basin = s.basin ∧ t.objs = s.objs ∧ t.ctxs = s.ctxs)

/-- Once every core of a norm command of more than one core has its partial sums, the ranks exchange them and every core finishes its rows (R320):
every run of the command is done; no object changes, no tile of Acc, no tile of Basin but for the parameter gradients of a NORM_BWD, and no register
but the count of corrected errors of the core that met them (R98). A tile command that has finished in every core, with its writes at their home
slices, ends: it adds 1 to DONE_OBJ where DONE_EN is set (R123, R182), is issued no longer and holds no reference; no tile, no Field byte and no
register of its plain changes. Stated for a context without a trace ring. The promotion of a background request changes when bytes arrive and nothing
that the model holds (R214). -/
def Obligations.TileCommandsFinish : Prop :=
  (∀ (p c : Fin 16) (id m n : Nat) (s : State) (i : Issued),
     (s.plain p).issued.find? (fun j => j.id = id) = some i → s.owner p = some m → s.running = true → exchanges i = true →
     (∀ r ∈ i.runs, r.st = .started) →
     (∀ r ∈ i.runs, s.effFault m (s.nmFinish m (16 * p + r.pos) (rankOf i.words r.pos) i.runs.length
       (coreOf i.words (16 * p)) i.words i.gens) = none) →
     ∃ t i', Answers (.rankExchange p ⟨id, c, ⟨n, false⟩⟩) s t ∧ (t.plain p).issued.find? (fun j => j.id = id) = some i' ∧
       i'.words = i.words ∧ i'.runs.map (·.pos) = i.runs.map (·.pos) ∧ (∀ r ∈ i'.runs, r.st = .done) ∧
       (∀ o, t.reg o = if o = offCore (16 * p + c) 0x34 ∧ (∃ r ∈ i.runs, r.pos = c.val) then satAdd (s.reg o) n else s.reg o) ∧
       t.objs = s.objs ∧ t.ctxs = s.ctxs ∧ t.acc = s.acc ∧
       ((nmOf i.words).bwd = false ∨ (nmOf i.words).pgrad = false → t.basin = s.basin)) ∧
  (∀ (p : Fin 16) (id m : Nat) (s : State) (i : Issued),
     (s.plain p).issued.find? (fun j => j.id = id) = some i → s.owner p = some m → s.running = true → (∀ r ∈ i.runs, r.st = .done) →
     s.writesWait p id = false → bit (s.reg (0xA0208 + 0x10 * m)) 31 = false → NoBreakAfter s m i.words →
     ∃ t, Answers (.tileCmdEnd p id) s t ∧
       (∀ o, t.obj o = if hdrDoneEn i.words = true ∧ o = hdrDoneObj i.words then s.obj o + 1 else s.obj o) ∧
       (t.plain p).issued = (s.plain p).issued.filter (fun j => j.id ≠ id) ∧ (∀ q, q ≠ p.val → t.plain q = s.plain q) ∧
       (∀ x ∈ t.slots, x ∈ s.slots ∧ (x.current = true ∨ t.referenced x = true)) ∧
       t = { s with plains := t.plains, slots := t.slots, objs := t.objs, cntShadow := t.cntShadow, free := t.free, glb := t.glb }) ∧
  (∀ (p : Fin 16) (id : Nat) (s : State), Answers (.bgPrefetchPromote p id) s s)

/-- A local LINEAR copy between device addresses that no earlier command holds back copies its bytes as they stood before (R413), and where nothing
waits for copy-on-write it ends, adding 1 to SIG_OBJ where SIG_EN is set (R416). No byte outside the destination changes. -/
def Obligations.LinearDmaCopiesAndEnds : Prop :=
  ∀ (p : Fin 16) (id m : Nat) (s : State) (j : Job) (d : Dm) (ecc : CoreEcc),
    (s.plain p).jobs.find? (fun j => j.id = id && ! j.coll) = some j → s.owner p = some m → s.running = true → j.moved = false →
    s.jobsBefore p id = true → (∀ q < 16, s.footBusy p q id (dmaFoot j.words q) = false) → s.dmaFault m (dmOf j.words) = none → d = dmOf j.words →
    d.mode = 1 → d.src.field = false → d.dst.field = false → d.remote = false → NothingHeld s →
    s.packetsOut p id = false → bit (s.reg 0x98040) 31 = false →
    ∃ t, Answers (.dmaEnd p ⟨id, ecc⟩) s t ∧ (∀ k < d.bytes, t.byte (d.dst.base + k) = s.byte (d.src.base + k)) ∧
      (∀ a, (a < d.dst.base ∨ d.dst.base + d.bytes ≤ a) → t.byte a = s.byte a) ∧
      (∀ o, t.obj o = if d.sig = true ∧ o = d.obj then s.obj o + 1 else s.obj o) ∧
      (t.plain p).jobs = (s.plain p).jobs.filter (fun k => k.id ≠ id) ∧ (∀ q, q ≠ p.val → t.plain q = s.plain q) ∧
      t = { s with mem := t.mem, poison := t.poison, plains := t.plains, objs := t.objs, cntLive := t.cntLive, msc := t.msc }

/-- The engine reads the rank table of the COLL that is due; where the table names this device at MY_RANK and reachable devices elsewhere (R462,
R472), and FREE can be waited for, the COLL waits for FREE with the devices of the table (R465). FREE is met: the COLL writes its data to every other
rank (R465), at least one packet for each, and goes on to wait for ARRIVE; an ALL_GATHER or ALL_TO_ALL also copies its own shard to DST + MY_RANK · S,
and a reducing COLL writes no memory of its own device. -/
def Obligations.CollSendsItsShards : Prop :=
  (∀ (p : Fin 16) (id m : Nat) (s : State) (j : Job) (d : Cl) (es : List Nat),
     (s.plain p).jobs.find? (fun j => j.id = id && j.coll && j.phase = .queued) = some j → s.owner p = some m → s.running = true →
     s.jobsBefore p id = true → d = clOf j.words → s.readFault m [(d.ranks, 2 * d.n)] = none →
     es = (List.range d.n).map (fun r => leNat (s.read (d.ranks + 2 * r) 2)) → (∀ e ∈ es, e < 4096) → s.isSelf (es.getD d.rank 0) = true →
     (∀ r < d.n, r ≠ d.rank → s.reachable (es.getD r 0) = true) →
     (reached (s.obj d.free) (d.freeTarget j.step) = true ∨ ahead (s.obj d.free) (d.freeTarget j.step) = true) →
     ∃ t, Answers (.collRankTableRead p id) s t ∧
       (t.plain p).jobs.find? (fun j => j.id = id) = some { j with phase := .free, ranks := es, moved := true } ∧
       (∀ q, q ≠ p.val → t.plain q = s.plain q) ∧ t = { s with plains := t.plains, msc := t.msc }) ∧
  (∀ (p : Fin 16) (id m : Nat) (s : State) (j : Job) (d : Cl),
     (s.plain p).jobs.find? (fun j => j.id = id && j.phase = .free) = some j → s.owner p = some m → s.collMet j = true → d = clOf j.words →
     (∀ r < d.n, s.refused (some m) (if d.op = 2 then d.src else d.src + r * d.shard) d.shard false = none) →
     (d.reduces = false → s.refused (some m) (d.dst + d.rank * d.shard) d.shard true = none) → d.shard ≠ 0 → Inv s →
     (reached (s.obj d.arrive) (d.arriveTarget j.step 0) = true ∨ ahead (s.obj d.arrive) (d.arriveTarget j.step 0) = true) →
     ∃ t j', Answers (.collFreeMet p id) s t ∧ (t.plain p).jobs.find? (fun j => j.id = id) = some j' ∧ j'.phase = .arrive ∧
       (∀ r < d.n, r ≠ d.rank → ∃ o ∈ t.outst, o.pk.ptype = 6 ∧ o.pk.dst = j.ranks.getD r 0 % 4096 ∧ o.pk.vc = d.vc) ∧
       (∀ a, t.byte a = if d.reduces = false ∧ d.dst + d.rank * d.shard ≤ a ∧ a < d.dst + d.rank * d.shard + d.shard
         then s.byte ((if d.op = 2 then d.src else d.src + d.rank * d.shard) + (a - (d.dst + d.rank * d.shard))) else s.byte a) ∧
       t.objs = s.objs ∧ t.ctxs = s.ctxs ∧ t.regs = s.regs)

/-- Every contribution has arrived and every tag matches (R468). A reducing COLL sums its shard in ascending rank (R466) and writes it to DST (plus
MY_RANK · O for ALL_REDUCE, which then sends it to every rank); the others write no memory. All but an ALL_REDUCE release their peers, with one
COLL_SIGNAL to each, and add 1 to SIG_OBJ where SIG_EN is set (R465). The second phase of an ALL_REDUCE has arrived with matching tags: the COLL
releases its peers and adds 1 to SIG_OBJ where SIG_EN is set (R465). A COLL whose packets are acknowledged and whose writes are applied ends (R471).
Neither writes memory. -/
def Obligations.CollReducesReleasesAndEnds : Prop :=
  (∀ (p : Fin 16) (id m : Nat) (s : State) (j : Job) (d : Cl) (out : Nat) (bs : Bytes),
     (s.plain p).jobs.find? (fun j => j.id = id && j.phase = .arrive) = some j → s.owner p = some m → s.collMet j = true → d = clOf j.words →
     s.checkTags m j 0 = none →
     (d.reduces = true →
       s.readFault m ((List.range d.n).map (fun r => (if r = d.rank then d.src + r * d.shard else d.stage + r * d.shard, d.shard))) = none) →
     out = (if d.op = 0 then d.dst + d.rank * d.outBytes else d.dst) → (d.reduces = true → s.refused (some m) out d.outBytes true = none) →
     (d.op = 0 → s.refused (some m) out d.outBytes false = none) → Inv s →
     bs = (if d.reduces then reduceShards d.inFmt d.outFmt d.elems
       ((List.range d.n).map (fun r => s.read (if r = d.rank then d.src + r * d.shard else d.stage + r * d.shard) d.shard)) else []) →
     (d.op = 0 → reached (s.obj d.arrive) (d.arriveTarget j.step 1) = true ∨ ahead (s.obj d.arrive) (d.arriveTarget j.step 1) = true) →
     ∃ t j', Answers (.collArriveMet p id) s t ∧ (t.plain p).jobs.find? (fun j => j.id = id) = some j' ∧
       j'.phase = (if d.op = 0 then .second else .last) ∧
       (∀ k (h : k < bs.length), t.byte (out + k) = bs[k]) ∧ (∀ a, (a < out ∨ out + bs.length ≤ a) → t.byte a = s.byte a) ∧
       (∀ o, t.obj o = if d.op ≠ 0 ∧ d.sig = true ∧ o = d.sigObj then s.obj o + 1 else s.obj o) ∧
       (d.op ≠ 0 → ∃ os, t.outst = s.outst ++ os ∧ os.map (fun o => o.pk.dst) = d.others.map (fun r => j.ranks.getD r 0 % 4096) ∧
         ∀ o ∈ os, o.pk.ptype = 7 ∧ o.pk.obj = d.free ∧ o.pk.add = 1) ∧
       t.ctxs = s.ctxs ∧ t.regs = s.regs) ∧
  ((∀ (p : Fin 16) (id m : Nat) (s : State) (j : Job) (d : Cl),
     (s.plain p).jobs.find? (fun j => j.id = id && j.phase = .second) = some j → s.owner p = some m → s.collMet j = true → d = clOf j.words →
     s.checkTags m j 1 = none →
     ∃ t j', Answers (.collPhase1Met p id) s t ∧ (t.plain p).jobs.find? (fun j => j.id = id) = some j' ∧ j'.phase = .last ∧
       (∀ o, t.obj o = if d.sig = true ∧ o = d.sigObj then s.obj o + 1 else s.obj o) ∧
       (∃ os, t.outst = s.outst ++ os ∧ os.map (fun o => o.pk.dst) = d.others.map (fun r => j.ranks.getD r 0 % 4096) ∧
         ∀ o ∈ os, o.pk.ptype = 7 ∧ o.pk.obj = d.free ∧ o.pk.add = 1) ∧
       t.mem = s.mem ∧ t.cow = s.cow ∧ t.ctxs = s.ctxs ∧ t.regs = s.regs) ∧
   (∀ (p : Fin 16) (id : Nat) (s : State) (j : Job),
     (s.plain p).jobs.find? (fun j => j.id = id && j.phase = .last) = some j → s.running = true → s.packetsOut p id = false →
     s.writesWait p id = false → bit (s.reg 0x98040) 31 = false →
     ∃ t, Answers (.collEnd p id) s t ∧ t.plain p = { s.plain p with jobs := (s.plain p).jobs.filter (fun k => k.id ≠ id) } ∧
       (∀ q, q ≠ p.val → t.plain q = s.plain q) ∧ t = { s with plains := t.plains }))

/-- A remote write that its destination admits is applied, and acknowledged by its REQ_ID once it is (R390, R442): a WRITE that a matching context
grants, a COLL_WRITE of the context's epoch (R473), a CKPT write inside the hosted range (R557). Stated where no write waits for copy-on-write. A
remote write that no context grants is not applied: it is counted in MEM_REMOTE_REFUSED_COUNT, recorded in the event log, and refused with REASON 1
(R390). -/
def Obligations.RemoteWriteIsAppliedOrRefused : Prop :=
  (∀ (n : Fin 64) (k : Packet) (s : State) (i : Instr),
     (i = .rxWrite n k ∧ Arrives s n k 1 ∧ (∃ m < 16, s.remoteOk m k = true) ∨
       i = .rxCollWrite n k ∧ Arrives s n k 6 ∧ (∃ m, s.tagged k = some m ∧ (s.ctx m).epoch.toNat = k.epoch ∧ s.remoteOk m k = true) ∨
       i = .rxCkpt n k ∧ Arrives s n k 9 ∧ bits (k.w 6) 1 0 = 0 ∧ s.hostedOk k k.data.length true = true) →
     NothingHeld s →
     ∃ t, Answers i s t ∧ (∀ j (h : j < k.data.length), t.byte (k.addr + j) = k.data[j]) ∧
       (∀ a, (a < k.addr ∨ k.addr + k.data.length ≤ a) → t.byte a = s.byte a) ∧
       Sent s t (fun a => a.ptype = 2 ∧ a.dst = k.src ∧ a.ackIds = [k.reqId]) ∧
       t = { s with mem := t.mem, poison := t.poison, msc := t.msc, links := t.links, linkTx := t.linkTx, txWait := t.txWait, ackNext := t.ackNext }) ∧
  (∀ (n : Fin 64) (k : Packet) (s : State) (i : Instr),
     (i = .rxWrite n k ∧ Arrives s n k 1 ∧ (∀ m < 16, s.remoteOk m k = false) ∨
       i = .rxCollWrite n k ∧ Arrives s n k 6 ∧ (∀ m, s.tagged k = some m → (s.ctx m).epoch.toNat = k.epoch ∧ s.remoteOk m k = false)) →
     ∃ t, Answers i s t ∧ t.reg 0x20018 = satAdd (s.reg 0x20018) 1 ∧ Logged t 0x04 0x0403 ∧
       Sent s t (fun a => a.ptype = 3 ∧ a.dst = k.src ∧ a.reqId = k.reqId ∧ a.reason = 1) ∧
       t = { s with regs := t.regs, log := t.log, logHead := t.logHead, links := t.links, linkTx := t.linkTx, txWait := t.txWait })

/-- A remote signal is applied, ADD added to the object, and acknowledged if the object lies in the global run of a context that is not IDLE and has
the signal's run tag (R191, R442), and the epoch too for a COLL_SIGNAL (R473). A SIGNAL that no context owns changes no object: it is counted in
SYN_REMOTE_DROP, recorded, and refused with REASON 1. -/
def Obligations.RemoteSignalIsAppliedOrDropped : Prop :=
  (∀ (n : Fin 64) (k : Packet) (s : State) (i : Instr) (m : Nat),
    (i = .rxSignal n k ∧ Arrives s n k 4 ∨ i = .rxCollSignal n k ∧ Arrives s n k 7 ∧ (s.ctx m).epoch.toNat = k.epoch) →
    s.globalOwner k = some m → (s.ctx m).runTag.toNat = k.runTag →
    ∃ t, Answers i s t ∧ t.obj k.obj = s.obj k.obj + BitVec.ofNat 32 k.add ∧ (∀ o, o ≠ k.obj → t.obj o = s.obj o) ∧
      Sent s t (fun a => a.ptype = 5 ∧ a.dst = k.src ∧ a.ackIds = [k.reqId]) ∧
      t = { s with objs := t.objs, links := t.links, linkTx := t.linkTx, txWait := t.txWait }) ∧
  (∀ (n : Fin 64) (k : Packet) (s : State) (i : Instr),
    (i = .rxSignal n k ∧ Arrives s n k 4 ∨ i = .rxCollSignal n k ∧ Arrives s n k 7) → s.globalOwner k = none →
    ∃ t, Answers i s t ∧ t.reg 0x50008 = satAdd (s.reg 0x50008) 1 ∧ Logged t 0x04 0 ∧
      Sent s t (fun a => a.ptype = 10 ∧ a.dst = k.src ∧ a.reqId = k.reqId ∧ a.reason = 1) ∧
      t = { s with regs := t.regs, log := t.log, logHead := t.logHead, links := t.links, linkTx := t.linkTx, txWait := t.txWait })

/-- An acknowledgement settles the packet it names (R441, R442): the sender holds it no longer, and nothing else changes where no COLL waited for it.
A refusal, or 100 ms without an answer, stops the command that sent the packet, and its context enters HALTED: a WRITE_NAK of REASON 1 with
MEM_REMOTE_REFUSED (R390) or of REASON 3 with LAYOUT_EPOCH (R473), a SIGNAL_NAK with SYNC_REFUSED (R192), a timeout with LNK_E2E (R704). Stated for a
packet of a DMA: its plain records the code and the TAG. After a WRITE_NAK of REASON 2 the sender sends the packet again and goes on holding it
(R443), up to the eighth failure of the same packet. -/
def Obligations.AnswersSettleOrStop : Prop :=
  (∀ (n : Fin 64) (k : Packet) (s : State) (i : Instr) (type : Nat) (o : Outst) (p id : Nat) (tag : W32) (pos : Nat) (pro sig : Bool),
     (i = .rxWriteAck n k ∧ Arrives s n k 2 ∧ type = 1 ∨ i = .rxSignalAck n k ∧ Arrives s n k 5 ∧ type = 4) →
     k.ackIds = [o.pk.reqId] → s.heldBy type k.src o.pk.reqId = some o → o.owner = .cmd p id tag pos pro sig →
     (∀ j ∈ (s.plain p).jobs, j.id = id → j.coll = false) →
     ∃ t, Answers i s t ∧ t.outst = s.outst.filter (fun x => x.pk.reqId ≠ o.pk.reqId) ∧ t = { s with outst := t.outst, links := t.links }) ∧
  (∀ (n : Fin 64) (k : Packet) (s : State) (i : Instr) (o : Outst) (p : Fin 16) (m code : Nat) (tag : W32) (pos : Nat) (pro sig : Bool) (j : Job),
     (i = .rxWriteNak n k ∧ Arrives s n k 3 ∧ s.heldBy 1 k.src k.reqId = some o ∧ (k.reason = 1 ∧ code = 0x0403 ∨ k.reason = 3 ∧ code = 0x0E04) ∨
       i = .rxSignalNak n k ∧ Arrives s n k 10 ∧ s.heldBy 4 k.src k.reqId = some o ∧ k.reason = 1 ∧ code = 0x0A05 ∨
       ∃ q : BitVec 16, i = .packetSettleTimeout q ∧ s.outst.find? (fun o => o.pk.reqId = q.toNat) = some o ∧ code = 0x0E03) →
     o.owner = .cmd p j.id tag pos pro sig → (s.plain p).jobs.find? (fun x => x.id = j.id) = some j → s.owner p = some m →
     (s.ctx m).st = .running → s.resetting m = false → s.ckp.phase = .idle → bit (s.reg 0x98000) 4 = false → bit (s.reg (offPln p 8)) 31 = false →
     ∃ t, Answers i s t ∧ (t.ctx m).st = .halted ∧ (t.plain p).pcc = .stopped ∧ (∀ x ∈ (t.plain p).jobs, x.id < j.id) ∧
       (∀ x ∈ t.outst, x.pk.reqId ≠ o.pk.reqId) ∧ t.reg (offPln p 8) = BitVec.ofNat 32 (2 ^ 31 + code) ∧
       t.reg (offPln p 0xC) = hdrTag j.words ∧ t.objs = s.objs ∧ t.mem = s.mem) ∧
  (∀ (n : Fin 64) (k : Packet) (s : State) (o : Outst),
     Arrives s n k 3 → s.heldBy 1 k.src k.reqId = some o → k.reason = 2 → o.gone = false → o.fails + 1 < 8 →
     ∃ t o', Answers (.rxWriteNak n k) s t ∧ t.outst = s.outst.filter (fun x => x.pk.reqId ≠ o.pk.reqId) ++ [o'] ∧
       o'.pk = o.pk ∧ o'.owner = o.owner ∧ o'.fails = o.fails + 1 ∧ t = { s with outst := t.outst, links := t.links, linkTx := t.linkTx })

/-- A STOP is admitted where REMOTE_EN is 1 and its run tag is that of a context that is not IDLE: the watershed records cause 4 and the sender, and
the device stops, at once or after its scan-out (R611, R616, R621). Any other STOP only enters the event log. A die-to-die module that exhausts its
retries is logged, and triggers the watershed with cause 5 (R27, R611). -/
def Obligations.StopsTriggerWatershed : Prop :=
  ((∀ (n : Fin 64) (k : Packet) (s : State), Arrives s n k 8 → bit (s.reg 0x98000) 2 = true → (s.tagged k).isSome = true → s.dbg = .running →
     ∃ t, Answers (.rxStop n k) s t ∧ t.dbg = (if bit (s.reg 0x98000) 5 then .scanning else .stopped) ∧
       bits (t.reg 0x98004) 23 16 = 4 ∧ bits (t.reg 0x98004) 11 0 = k.src ∧ t.pairVal 0x98050 = s.time.toNat ∧
       t.mem = s.mem ∧ t.objs = s.objs ∧ t.ctxs = s.ctxs ∧ t.plains = s.plains) ∧
   (∀ (n : Fin 64) (k : Packet) (s : State), Arrives s n k 8 → bit (s.reg 0x98000) 2 = false →
     ∃ t, Answers (.rxStop n k) s t ∧ Logged t 0x04 0 ∧ t = { s with log := t.log, logHead := t.logHead, links := t.links })) ∧
  (∀ s : State, s.dbg = .running →
     ∃ t, Answers .d2dRetryLimit s t ∧ bits (t.reg 0x98004) 23 16 = 5 ∧ bit (t.reg 0x98004) 29 = false ∧
       t.dbg = (if bit (s.reg 0x98000) 5 then .scanning else .stopped) ∧ t.mem = s.mem ∧ t.ctxs = s.ctxs ∧ t.plains = s.plains)

/-- A receiver accepts a flit whose codewords decode, whose CCRC is right and whose FSEQ is the next in order: its credit update is taken and NAK is
withdrawn. It discards a flit whose codewords do not decode, counts them, and asks for a replay in the next flit that it sends (R447): a flit carries
the FSEQ that is next, in ACK the FSEQ last accepted, NAK, and their CCRC (R438). Where ACK has not advanced for 4 µs, the sender sends every flit
that is not acknowledged again, in order, and LNK_RETRY counts them (R447). A link whose flit has been replayed 64 times in a row, or that has
received nothing it can accept for 1 ms, enters FAILED (R449): the packets not all acknowledged on it are held no longer. -/
def Obligations.FlitsAreAcceptedReplayedOrLost : Prop :=
  ((∀ (n : Fin 64) (f : FlitObs) (s : State), s.linkState n = 2 → f.failed = 0 → ccrc f.ctl = ctlField f.ctl 15 0 →
     BitVec.ofNat 12 (ctlField f.ctl 63 52) = (s.link n).rxLast + 1 → (s.link n).cred.length = 8 →
     ∃ t, Answers (.flitReceive n f) s t ∧ (t.link n).rxLast = (s.link n).rxLast + 1 ∧ (t.link n).nak = false ∧
       (t.link n).cred.getD (ctlField f.ctl 37 36 * 2 + ctlField f.ctl 38 38) 0 = BitVec.ofNat 16 (ctlField f.ctl 35 20) ∧
       t.reg (offLnk n 0xC) = satAdd (s.reg (offLnk n 0xC)) f.corrected ∧ t.mem = s.mem ∧ t.objs = s.objs ∧ t.ctxs = s.ctxs ∧ t.plains = s.plains) ∧
   (∀ (n : Fin 64) (f : FlitObs) (s : State), s.linkState n = 2 → f.failed ≠ 0 → (s.link n).unacked < 128 →
     ∃ t g, Answers (.flitReceive n f) s t ∧ (t.link n).rxLast = (s.link n).rxLast ∧ (t.link n).cred = (s.link n).cred ∧
       (t.link n).out = (s.link n).out ++ [g] ∧ ctlField g.ctl 39 39 = 1 ∧ ctlField g.ctl 51 40 = (s.link n).rxLast.toNat ∧
       ctlField g.ctl 63 52 = (s.link n).txNext.toNat ∧ ctlField g.ctl 15 0 = ccrc g.ctl ∧
       t.reg (offLnk n 0x10) = satAdd (s.reg (offLnk n 0x10)) f.failed ∧ t = { s with regs := t.regs, links := t.links })) ∧
  (∀ (n : Fin 64) (s : State), s.linkState n = 2 → (s.link n).unacked ≠ 0 →
     ∃ t, Answers (.replayTimeout n) s t ∧ t.link n = { s.link n with replays := (s.link n).replays + 1, out := (s.link n).out ++ (s.link n).kept } ∧
       t.reg (offLnk n 8) = satAdd (s.reg (offLnk n 8)) (s.link n).unacked ∧ t = { s with regs := t.regs, links := t.links }) ∧
  (∀ (n : Fin 64) (s : State) (i : Instr),
     (i = .linkReplayLimit n ∧ 64 ≤ (s.link n).replays ∨ i = .linkRxLoss n) → s.linkState n = 2 → s.ckp.phase = .idle → bit (s.reg 0x98000) 4 = false →
     ∃ t, Answers i s t ∧ t.linkState n = 3 ∧ (∀ o ∈ t.outst, ∀ f, o.on ≠ some (n.val, f)) ∧ t.objs = s.objs ∧ t.mem = s.mem ∧ t.links = s.links)

/-- LNK_CTRL.EN going from 0 to 1 trains a link whose col is enabled and powered, and does not train one whose col is not; going from 1 to 0 it takes
a link that is TRAINING or UP to DOWN, and leaves one that is FAILED as it is (R449, R484, R486). A link that trains comes UP with its partner's ID in
LNK_STATUS, its sequence numbers and credits afresh (R449, R484); with an unsupported module it goes DOWN, and the col records FAULT and the log
COL_MODULE (R486). Switching a module's power writes MOD_PWR; without power no link of the col stays TRAINING or UP, and with it none starts to train
(R486). MOD_RESET is set by software, and cleared by the device when the reset ends, when the col shows what the module then reports. -/
def Obligations.LinksTrainAndModulesSwitch : Prop :=
  (∀ (n : Fin 64) (en : Bool) (s : State), s.ready = true → s.memOn = true →
     ∃ t, Answers (.lnkCtrlEn n en) s t ∧ bit (t.reg (offLnk n 4)) 0 = en ∧
       t.linkState n = (if en = true ∧ bit (s.reg (offLnk n 4)) 0 = false ∧ s.colReady (n / 4) = true then 1
         else if en = false ∧ bit (s.reg (offLnk n 4)) 0 = true ∧ (s.linkState n = 1 ∨ s.linkState n = 2) then 0 else s.linkState n) ∧
       (∀ k : Fin 64, k ≠ n → t.linkState k = s.linkState k) ∧ t = { s with regs := t.regs, log := t.log, logHead := t.logHead }) ∧
  ((∀ (n : Fin 64) (peer : Option (BitVec 12)) (s : State), s.linkState n = 1 → s.txWait = [] → s.outst = [] →
     ∃ t, Answers (.linkTrained n (.up peer)) s t ∧ t.linkState n = 2 ∧ t.link n = (s.link n).train ∧
       bit (t.reg (offLnk n 0)) 24 = peer.isSome ∧ (∀ d, peer = some d → bits (t.reg (offLnk n 0)) 23 12 = d.toNat) ∧
       (∀ k : Fin 64, k ≠ n → t.linkState k = s.linkState k) ∧ t = { s with regs := t.regs, log := t.log, logHead := t.logHead, links := t.links }) ∧
   (∀ (n : Fin 64) (s : State), s.linkState n = 1 →
     ∃ t, Answers (.linkTrained n .badModule) s t ∧ t.linkState n = 0 ∧ bit (t.reg (0x78000 + 0x10 * (n.val / 4))) 26 = true ∧
       (∃ e ∈ t.log, bits (wordAt e 3) 31 24 = 0x01 ∧ bits (wordAt e 3) 15 0 = 0x0F01) ∧
       t = { s with regs := t.regs, log := t.log, logHead := t.logHead })) ∧
  ((∀ (k : Fin 16) (on : Bool) (s : State), s.ready = true → s.memOn = true →
     ∃ t, Answers (.colModPwr k on) s t ∧ bit (t.reg (0x78004 + 0x10 * k)) 0 = on ∧
       (∀ n : Fin 64, t.linkState n = (if on = false ∧ n.val / 4 = k.val ∧ (s.linkState n = 1 ∨ s.linkState n = 2) then 0 else s.linkState n)) ∧
       t = { s with regs := t.regs, log := t.log, logHead := t.logHead }) ∧
   (∀ (k : Fin 16) (s : State), s.ready = true → s.memOn = true →
     ∃ t, Answers (.colModReset k none) s t ∧ bit (t.reg (0x78004 + 0x10 * k)) 1 = true ∧
       (∀ o, o ≠ 0x78004 + 0x10 * k.val → t.reg o = s.reg o) ∧ t = { s with regs := t.regs }) ∧
   (∀ (k : Fin 16) (c : CageObs) (s : State),
     ∃ t, Answers (.colModReset k (some c)) s t ∧ bit (t.reg (0x78004 + 0x10 * k)) 1 = false ∧ bit (t.reg (0x78000 + 0x10 * k)) 31 = c.present ∧
       (c.present = true → bits (t.reg (0x78000 + 0x10 * k)) 30 28 = c.media.toNat ∧ bit (t.reg (0x78000 + 0x10 * k)) 26 = c.fault ∧
         bits (t.reg (0x78000 + 0x10 * k)) 15 8 = c.tempC.toNat) ∧
       (∀ o, o ≠ 0x78000 + 0x10 * k.val → o ≠ 0x78004 + 0x10 * k.val → t.reg o = s.reg o) ∧ t = { s with regs := t.regs }))

/-- A write of LNK_CTX_RESHARD by a requester that may reach the context requests a layout epoch (R475, R476): with nothing in flight a RUNNING
context marks it PENDING for its next step boundary, any other takes it at once; with packets in flight the request is refused and BUSY set. -/
def Obligations.ReshardSetsOrDefersEpoch : Prop :=
  ∀ (v : Nat) (m : Fin 16) (e : BitVec 16) (s : State), (v = m.val ∨ 16 ≤ v) → s.reaches v = true → s.ready = true →
    ∃ t, Answers (.lnkCtxReshard v m e) s t ∧
      t.ctx m = (if s.inFlight m ≠ 0 then { s.ctx m with busy := true }
        else if (s.ctx m).st = .running then { s.ctx m with busy := false, pending := some e }
        else { s.ctx m with busy := false, epoch := e, pending := none }) ∧
      (∀ k, k ≠ m.val → t.ctx k = s.ctx k) ∧ t = { s with ctxs := t.ctxs }

/-- NOP, PAUSE, SYNC_ADD and SNAP_REQUEST complete with status 0 and have the effect of their entry (R505, R506, R539): nothing; PAUSE of the pair's
context set to VALUE; ADD added to an object the context owns; tiers added to the snapshot request. -/
def Obligations.SimpleRingCommandsComplete : Prop :=
  (∀ (r : Fin 17) (e : Words) (s : State), AtEntry s r e 0x00 [] 2 →
    ∃ t, Answers (.nop r e) s t ∧ Completed s t r e 0 ∧ OnlyPending s t ∧
      t = { s with pairs := t.pairs, hostTx := t.hostTx, regs := t.regs }) ∧
  (∀ (r : Fin 17) (e : Words) (s : State), AtEntry s r e 0x03 [(2, 0xFFFFFFFE)] 3 → r.val < 16 →
    ∃ t, Answers (.pause r e) s t ∧ Completed s t r e 0 ∧ t.ctx r = { s.ctx r with pause := bit (wordAt e 2) 0 } ∧
      (∀ k, k ≠ r.val → t.ctx k = s.ctx k) ∧ OnlyPending s t ∧
      t = { s with ctxs := t.ctxs, pairs := t.pairs, hostTx := t.hostTx, regs := t.regs }) ∧
  (∀ (r : Fin 17) (e : Words) (s : State), AtEntry s r e 0x05 [(2, 0xFFFFC000), (3, 0xFFFF0000)] 4 → r.val < 16 →
    bits (wordAt e 3) 15 0 ≠ 0 → s.ownsObj r (bits (wordAt e 2) 13 0) = true → s.hostWrites = false →
    ∃ t, Answers (.syncAdd r e) s t ∧ Completed s t r e 0 ∧
      (∀ o, t.obj o = if o = bits (wordAt e 2) 13 0 then s.obj o + BitVec.ofNat 32 (bits (wordAt e 3) 15 0) else s.obj o) ∧
      OnlyPending s t ∧
      t = { s with objs := t.objs, pairs := t.pairs, hostTx := t.hostTx, regs := t.regs }) ∧
  (∀ (r : Fin 17) (e : Words) (s : State), AtEntry s r e 0x10 [(2, 0xFFFFFFF8)] 3 → r.val < 16 → bits (wordAt e 2) 2 0 ≠ 0 →
    ∃ t, Answers (.snapRequest r e) s t ∧ Completed s t r e 0 ∧
      t.ctx r = { s.ctx r with snap := (s.ctx r).snap ||| BitVec.ofNat 3 (bits (wordAt e 2) 2 0), deferred := false } ∧
      (∀ k, k ≠ r.val → t.ctx k = s.ctx k) ∧ OnlyPending s t ∧
      t = { s with ctxs := t.ctxs, pairs := t.pairs, hostTx := t.hostTx, regs := t.regs })

/-- ARM of an IDLE context with a run record that is accepted arms it (R169): the context holds the run tag, the seed, FIRST_STEP and STEP_COUNT of
the record and the streams of the image, every object it owns that SYNC_INIT does not name is zero, its plains stand before their first commands, and
the state is ARMED. A record for a context that is not IDLE is refused with HIF_CTX_STATE, and the context is unchanged (R170). -/
def Obligations.ArmAcceptsOrRefusesRecord : Prop :=
  (∀ (r : Fin 17) (e : Words) (s : State) (i : Image), AtEntry s r e 0x01 [] 9 → r.val < 16 → (s.ctx r).st = .idle →
    bits (wordAt e 2) 15 0 = 0 → s.readImage r (dword e 3) = .ok i →
    s.ckp.phase = .idle →
    ∃ t, Answers (.arm r e) s t ∧ Completed s t r e 0 ∧ (t.ctx r).st = .armed ∧
      (t.ctx r).runTag.toNat = bits (wordAt e 2) 31 16 ∧ (t.ctx r).step = wordAt e 5 ∧ (t.ctx r).firstStep = wordAt e 5 ∧
      (t.ctx r).stepCount = wordAt e 6 ∧ (t.ctx r).seed.toNat = dword e 7 ∧ (t.ctx r).streams = i.streams ∧
      (∀ o < 16384, s.ownsObj r o = true → (∀ w ∈ i.init, bits (wordAt w 0) 13 0 ≠ o) → t.obj o = 0) ∧
      (∀ o w, i.init = [w] → o = bits (wordAt w 0) 13 0 → t.obj o = wordAt w 1 + wordAt w 2 * wordAt e 5) ∧
      (∀ k, k ≠ r.val → t.ctx k = s.ctx k) ∧ t.mem = s.mem ∧ (∀ p ∈ s.plainsOf r, (t.plain p).pos = 0 ∧ (t.plain p).fetched = none ∧
        (t.plain p).pcc = (s.plain p).pcc ∧ (t.plain p).issued = (s.plain p).issued ∧ (t.plain p).jobs = (s.plain p).jobs) ∧
      (∀ p, p ∉ s.plainsOf r → t.plain p = s.plain p)) ∧
  (∀ (r : Fin 17) (e : Words) (s : State), AtEntry s r e 0x01 [] 9 → r.val < 16 → (s.ctx r).st ≠ .idle → bits (wordAt e 2) 15 0 = 0 →
    ∃ t, Answers (.arm r e) s t ∧ Completed s t r e 0x0204 ∧ t.ctxs = s.ctxs ∧ t.objs = s.objs ∧ Logged t 0x05 0x0204)

/-- START of an ARMED or PAUSED context makes it RUNNING: each of its PCCs starts at the first command of its PROLOGUE stream, if it has one and the
context was ARMED, else of its STEP stream (R172, R175). It is refused in every other state (R170). The ring command and SCH_CTX_CTRL.START have this
same effect. DISARM of a context that is neither RUNNING nor IDLE makes it IDLE, and its PCCs issue nothing (R168); of a RUNNING one it is refused
(R170). The ring command and SCH_CTX_CTRL.DISARM have this same effect; a write of SCH_CTX_CTRL with neither START nor DISARM only sets PAUSE (R227).
-/
def Obligations.StartAndDisarmMoveContexts : Prop :=
  ((∀ (v : Nat) (m : Fin 16) (r : Fin 17) (e : Words) (pause : Bool) (s : State) (i : Instr),
     (i = .start r e ∧ r.val = m.val ∧ AtEntry s r e 0x02 [] 2 ∧ s.running = true ∧ pause = (s.ctx m).pause ∨
       i = .schCtxCtrlStart v m pause ∧ (v = m.val ∨ 16 ≤ v) ∧ s.reaches v = true ∧ s.ready = true) →
     ((s.ctx m).st = .armed ∨ (s.ctx m).st = .paused) → s.ckp.phase = .idle →
     ∃ t, Answers i s t ∧ (t.ctx m).st = .running ∧ (t.ctx m).pause = pause ∧ (t.ctx m).step = (s.ctx m).step ∧
       (∀ p ∈ s.plainsOf m, (t.plain p).pcc = .issuing ∧ (t.plain p).pos = 0 ∧ (t.plain p).fetched = none ∧ (t.plain p).lastTag = 0 ∧
         (t.plain p).prologue = ((s.ctx m).st = .armed && (s.streamOf p false).isSome)) ∧
       (∀ p, p ∉ s.plainsOf m → t.plain p = s.plain p) ∧ (∀ k, k ≠ m.val → t.ctx k = s.ctx k) ∧ t.objs = s.objs ∧ t.mem = s.mem) ∧
   (∀ (r : Fin 17) (e : Words) (s : State), AtEntry s r e 0x02 [] 2 → r.val < 16 → s.running = true → (s.ctx r).st = .running →
     ∃ t, Answers (.start r e) s t ∧ Completed s t r e 0x0204 ∧ t.ctxs = s.ctxs ∧ t.plains = s.plains ∧ Logged t 0x05 0x0204)) ∧
  ((∀ (v : Nat) (m : Fin 16) (r : Fin 17) (e : Words) (pause : Bool) (s : State) (i : Instr),
     (i = .disarm r e ∧ r.val = m.val ∧ AtEntry s r e 0x04 [] 2 ∧ pause = (s.ctx m).pause ∨
       i = .schCtxCtrlDisarm v m pause ∧ (v = m.val ∨ 16 ≤ v) ∧ s.reaches v = true ∧ s.ready = true) →
     (s.ctx m).st ≠ .running → (s.ctx m).st ≠ .idle → s.ckp.phase = .idle →
     ∃ t, Answers i s t ∧ (t.ctx m).st = .idle ∧ (t.ctx m).pause = pause ∧ (∀ p ∈ s.plainsOf m, (t.plain p).pcc = .idle ∧ (t.plain p).fetched = none) ∧
       (∀ p, p ∉ s.plainsOf m → t.plain p = s.plain p) ∧ (∀ k, k ≠ m.val → t.ctx k = s.ctx k) ∧ t.objs = s.objs ∧ t.mem = s.mem) ∧
   (∀ (r : Fin 17) (e : Words) (s : State), AtEntry s r e 0x04 [] 2 → r.val < 16 → (s.ctx r).st = .running →
     ∃ t, Answers (.disarm r e) s t ∧ Completed s t r e 0x0204 ∧ t.ctxs = s.ctxs ∧ t.plains = s.plains) ∧
   (∀ (v : Nat) (m : Fin 16) (pause : Bool) (s : State), (v = m.val ∨ 16 ≤ v) → s.reaches v = true → s.ready = true →
     ∃ t, Answers (.schCtxCtrlPause v m pause) s t ∧ t.ctx m = { s.ctx m with pause := pause } ∧ (∀ k, k ≠ m.val → t.ctx k = s.ctx k) ∧
       t = { s with ctxs := t.ctxs }))

/-- A COPY whose fields are in range and whose device range is admitted starts (R508): from the host it asks for BYTES from HOST_ADDR, in requests of
at most 4,096 bytes (R487); to the host it asks for nothing. A COPY whose BYTES is not a multiple of 64 completes with HIF_PAYLOAD before any byte
moves (R504). A COPY completes once its data is in place (R508), and adds 1 to OBJ where SIG_EN is set (R706): from the host, every byte received is
written at its place from DEV_ADDR on and no other byte changes; to the host, every line of the device range has left, and device memory is unchanged.
Stated for data without poison, a host that does not fail, and no write that waits for copy-on-write. -/
def Obligations.CopyStartsAndCompletes : Prop :=
  ((∀ (r : Fin 17) (e : Words) (s : State), AtEntry s r e 0x06 [(2, 0x3FFFC000)] 8 → cpHost e % 64 = 0 → cpDev e % 64 = 0 → cpBytes e % 64 = 0 →
     cpBytes e ≠ 0 → s.objBad r e = false → s.refused (pairCtx r) (cpDev e) (cpBytes e) (! cpDir e) = none →
     ∃ t, Answers (.copy r e) s t ∧ t.pair r = { s.pair r with cur := some e, old := false, stale := false } ∧ (∀ q, q ≠ r.val → t.pair q = s.pair q) ∧
       t.hostTx = s.hostTx ++ (if cpDir e then [] else hostReads (cpHost e) (cpBytes e)) ∧
       (∀ x ∈ hostReads (cpHost e) (cpBytes e), ∃ a n, x = .read a n ∧ n ≤ 4096) ∧ t = { s with pairs := t.pairs, hostTx := t.hostTx }) ∧
   (∀ (r : Fin 17) (e : Words) (s : State), AtEntry s r e 0x06 [(2, 0x3FFFC000)] 8 → cpBytes e % 64 ≠ 0 →
     ∃ t, Answers (.copy r e) s t ∧ Completed s t r e 0x0208 ∧ OnlyPending s t ∧ t = { s with pairs := t.pairs, hostTx := t.hostTx, regs := t.regs })) ∧
  (∀ (r : Fin 17) (e : Words) (data : Bytes) (s : State),
     (s.pair r).cur = some e → entryOp e = 0x06 → (s.pair r).copied = none → (s.pair r).old = false → (s.pair r).ovf = [] → (s.pair r).lost = 0 →
     s.canPost r = true → NothingHeld s → s.ddrFailed = false → s.poison = [] → cpBytes e % 64 = 0 → data.length = (if cpDir e then 0 else cpBytes e) →
     ∃ t, Answers (.copyComplete r ⟨data, [], false⟩) s t ∧ Completed s t r e 0 ∧
       (∀ o, t.obj o = if cpSig e = true ∧ o = cpObj e then s.obj o + 1 else s.obj o) ∧
       (∀ j (h : j < data.length), t.byte (cpDev e + j) = data[j]) ∧
       (∀ a, (a < cpDev e ∨ cpDev e + data.length ≤ a) → t.byte a = s.byte a) ∧
       (cpDir e = true → ∀ l < cpBytes e / 64, .write (cpHost e + 64 * l) (s.read (cpDev e + 64 * l) 64) false ∈ t.hostTx) ∧
       OnlyPending s t ∧ t = { s with mem := t.mem, msc := t.msc, objs := t.objs, pairs := t.pairs, hostTx := t.hostTx, regs := t.regs })

/-- A pair reads its doorbell line and the entry at SQ_HEAD (R494, R499, R500): in PCIe-only operation at each poll, in CXL operation when the host
takes the line. It takes SQ_TAIL and CQ_HEAD from the line; an entry that is not valid will be read again (R501); counts that leave the ring stop the
pair with DB_RANGE (R497). The entry at SQ_HEAD is read, and where it was not valid before that is counted (R501); once it is valid the pair no longer
waits for it. One that is still not valid after 1 ms stops the pair with DESC_STALE, and SQ_HEAD is left unchanged. -/
def Obligations.DoorbellsAndEntriesAreRead : Prop :=
  (∀ (r : Fin 17) (o : DoorbellObs) (s : State) (i : Instr),
     (i = .doorbellPoll r o ∧ s.cxl = false ∨ i = .doorbellLineLost r o ∧ s.cxl = true) → s.inD0 = true → (s.pair r).st = .active → (s.pair r).cur = none →
     ((o.sqTail - (s.pair r).sqHead).toNat ≤ 2 ^ s.sqLog r → ((s.pair r).cqTail - o.cqHead).toNat ≤ 2 ^ s.cqLog r → o.sqTail ≠ (s.pair r).sqHead →
       s.entryValid r o.entry = false →
       ∃ t, Answers i s t ∧ t.pair r = { s.pair r with sqTail := o.sqTail, cqHead := o.cqHead, stale := true } ∧
         (∀ q, q ≠ r.val → t.pair q = s.pair q) ∧ t.hostTx = s.hostTx ++ [.read (s.pairVal (offHif r 0x10)) 64,
           .read (s.pairVal (offHif r 0) + 64 * ((s.pair r).sqHead.toNat % 2 ^ s.sqLog r)) 64] ∧ t = { s with pairs := t.pairs, hostTx := t.hostTx }) ∧
     (2 ^ s.sqLog r < (o.sqTail - (s.pair r).sqHead).toNat →
       ∃ t, Answers i s t ∧ (t.pair r).st = .stopped ∧ (t.pair r).code = 0x0202 ∧ (t.pair r).sqHead = (s.pair r).sqHead ∧
         (∀ q, q ≠ r.val → t.pair q = s.pair q) ∧ t.mem = s.mem ∧ t.ctxs = s.ctxs)) ∧
  ((∀ (r : Fin 17) (e : Words) (s : State), s.readsEntry r = true → (s.entryValid r e = true → entryOp e < 8 ∨ 0x10 ≤ entryOp e ∧ entryOp e ≤ 0x13) →
     ∃ t, Answers (.staleReread r e) s t ∧ t.reg (offHif r 0x2C) = (if (s.pair r).stale then satAdd (s.reg (offHif r 0x2C)) 1 else s.reg (offHif r 0x2C)) ∧
       t.pair r = { s.pair r with stale := ! s.entryValid r e } ∧ t.hostTx = s.hostTx ++
         [.read (s.pairVal (offHif r 0) + 64 * ((s.pair r).sqHead.toNat % 2 ^ s.sqLog r)) 64] ∧
       t = { s with regs := t.regs, pairs := t.pairs, hostTx := t.hostTx }) ∧
   (∀ (r : Fin 17) (e : Words) (s : State), s.readsEntry r = true → (s.pair r).stale = true → s.entryValid r e = false →
     ∃ t, Answers (.descStale r e) s t ∧ (t.pair r).st = .stopped ∧ (t.pair r).code = 0x0201 ∧ (t.pair r).sqHead = (s.pair r).sqHead ∧
       (∀ q, q ≠ r.val → t.pair q = s.pair q) ∧ t.mem = s.mem ∧ t.ctxs = s.ctxs))

/-- EN = 1 makes a DISABLED pair ACTIVE with SQ_HEAD and CQ_TAIL zero (R496); EN = 0 makes any pair DISABLED. DETACH, or a failed read of the pair's
host memory, makes an ACTIVE or STOPPED pair DETACHED with HIF_HOST_LOST in its CODE, EN cleared, and counts it (R521). Losing the PCIe link detaches
every ACTIVE or STOPPED pair (R521). A function-level reset leaves every pair DISABLED, and configuration space and the MSI-X table at their reset
values, and PERST# does both (R523, R692). None of them touches device memory, contexts, plains, links or Ethernet ports. The link coming up is
recorded in HIF_LINK_STATUS (R490). -/
def Obligations.PairsComeAndGo : Prop :=
  ((∀ (v : Nat) (r : Fin 17) (s : State), (v = r.val ∨ 16 ≤ v) → s.reaches v = true → s.ready = true → (s.pair r).st = .disabled →
     ∃ t, Answers (.hifPairCtrlEn v r true) s t ∧ (t.pair r).st = .active ∧ (t.pair r).en = true ∧ (t.pair r).sqHead = 0 ∧ (t.pair r).cqTail = 0 ∧
       (t.pair r).ovf = (s.pair r).ovf ∧ (∀ q, q ≠ r.val → t.pair q = s.pair q) ∧ t.mem = s.mem ∧ t.ctxs = s.ctxs ∧ t.hostTx = s.hostTx) ∧
   (∀ (v : Nat) (r : Fin 17) (s : State), (v = r.val ∨ 16 ≤ v) → s.reaches v = true → s.ready = true →
     ∃ t, Answers (.hifPairCtrlEn v r false) s t ∧ (t.pair r).st = .disabled ∧ (t.pair r).sqHead = (s.pair r).sqHead ∧
       (∀ q, q ≠ r.val → t.pair q = s.pair q) ∧ t.mem = s.mem ∧ t.ctxs = s.ctxs ∧ t.hostTx = s.hostTx) ∧
   (∀ (v : Nat) (r : Fin 17) (s : State) (i : Instr),
     (i = .hifPairCtrlDetach v r ∧ (v = r.val ∨ 16 ≤ v) ∧ s.reaches v = true ∧ s.ready = true ∨ i = .hostReadTimeout r) →
     ((s.pair r).st = .active ∨ (s.pair r).st = .stopped) → (s.pair r).cur = none →
     ∃ t, Answers i s t ∧ (t.pair r).st = .detached ∧ (t.pair r).code = 0x0207 ∧ (t.pair r).en = false ∧
       t.reg 0x1000C = satAdd (s.reg 0x1000C) 1 ∧ (∀ q, q ≠ r.val → t.pair q = s.pair q) ∧ t.mem = s.mem ∧ t.ctxs = s.ctxs ∧ t.hostTx = s.hostTx)) ∧
  (∀ (i : Instr) (o : PcieObs) (s : State), i ∈ [Instr.pcieLinkDown, .functionLevelReset, .perst, .pcieLinkUp o] →
     ∃ t, Answers i s t ∧ t.mem = s.mem ∧ t.ctxs = s.ctxs ∧ t.plains = s.plains ∧ t.objs = s.objs ∧ t.links = s.links ∧ t.qps = s.qps ∧ t.win = s.win ∧
       (i = .pcieLinkDown → ∀ r < 17, (t.pair r).st =
         (if (s.pair r).st = .active ∨ (s.pair r).st = .stopped then .detached else (s.pair r).st)) ∧
       (i = .functionLevelReset ∨ i = .perst → ∀ r < 17, (t.pair r).st = .disabled ∧ (t.pair r).en = false ∧ (t.pair r).cqTail = (s.pair r).cqTail) ∧
       (i = .functionLevelReset ∨ i = .perst → (∀ off < 0x100, t.cfg off = pciDefault off) ∧ ∀ o, 0xE0000 ≤ o → o < 0xF0000 → t.reg o = regDefault o) ∧
       (i = .perst → ∀ r < 17, (s.pair r).st = .active → (t.pair r).code = 0x0207) ∧
       (i = .pcieLinkDown ∨ i = .perst → bit (t.reg 0x10004) 31 = false) ∧
       (i = .pcieLinkUp o → bit (t.reg 0x10004) 31 = true ∧ bit (t.reg 0x10004) 30 = o.cxl ∧ bit (t.reg 0x10004) 28 = (o.cxl && o.mem) ∧ t.pairs = s.pairs))

/-- Once posting is possible again, the oldest completion of the overflow queue is written to the ring first, and where that empties the queue and
entries were lost, COMPLETIONS_LOST follows with their count while there is room (R512). COAL_US after its last vector a pair sends the interrupt it
held back, if IRQ_EN is set and CQ_TAIL still differs from CQ_HEAD (R511); a vector that is masked becomes pending instead, and a DETACHED or DISABLED
pair sends none (R522, R523). A configuration request is answered with Request Retry Status until P1 has started configuration space, and then
answered normally (R630): a read with the word it names; a write changes the bits that software writes in the word it names, as PCI Express says
(PRESUMED, log entry 134), and Initiate Function-Level Reset disables every pair (R523). -/
def Obligations.CompletionsAndInterruptsArePosted : Prop :=
  (∀ (r : Fin 17) (s : State) (w : Words), (s.pair r).ovf = [w] → s.canPost r = true →
     ∃ t, Answers (.overflowQueuePost r) s t ∧ (t.pair r).ovf = [] ∧
       (∃ rest, t.hostTx = s.hostTx ++
         HostOut.write (s.pairVal (offHif r 0x08) + 64 * ((s.pair r).cqTail.toNat % 2 ^ s.cqLog r) + 4) (bytesOf (w.drop 1)) false :: rest) ∧
       ((s.pair r).lost = 0 → (t.pair r).cqTail = (s.pair r).cqTail + 1 ∧ (t.pair r).lost = 0) ∧
       ((s.pair r).lost ≠ 0 → ((s.pair r).cqTail + 1 - (s.pair r).cqHead).toNat < 2 ^ s.cqLog r →
         (t.pair r).cqTail = (s.pair r).cqTail + 2 ∧ (t.pair r).lost = 0) ∧
       (∀ q, q ≠ r.val → t.pair q = s.pair q) ∧ OnlyPending s t ∧ t = { s with pairs := t.pairs, hostTx := t.hostTx, regs := t.regs }) ∧
  ((∀ (r : Fin 17) (s : State), (s.pair r).irq = true →
     ∃ t, Answers (.irqCoalesce r) s t ∧ (t.pair r).irq = false ∧ (∀ q, q ≠ r.val → t.pair q = s.pair q) ∧
       (∀ due : Bool, due = decide (((s.pair r).st = .active ∨ (s.pair r).st = .stopped) ∧ bit (s.reg (offHif r 0x18)) 31 = true ∧
           (s.pair r).cqTail ≠ (s.pair r).cqHead ∧ s.msixOn = true) →
         t.hostTx = s.hostTx ++ (if due = true ∧ s.msixMasked r = false then [.msix r] else []) ∧
         (due = true → s.msixMasked r = true → bit (t.reg 0xE8000) r = true)) ∧
       OnlyPending s t ∧ t = { s with pairs := t.pairs, hostTx := t.hostTx, regs := t.regs }) ∧
   (∀ (s : State) (served : Bool), served = decide (s.board.power = true ∧
       (s.board.waiting = true ∨ s.board.trip = true ∨ ¬ (s.phase ≤ 1 ∨ s.phase = 6))) →
     (∀ q : CfgReq, served = false → Answers (.configurationRequest q) s { s with hostTx := s.hostTx ++ [.retry] }) ∧
     (∀ off : Nat, served = true →
       Answers (.configurationRequest (.read off)) s { s with hostTx := s.hostTx ++ [.configData off (s.cfg (off / 4 * 4))] }) ∧
     (∀ (off : Nat) (value : W32) (w : PciRow), served = true → off % 4 = 0 → pciRow off = some w → s.reg 0xE8000 = 0 →
       (off ≠ 0x58 → ∃ t, Answers (.configurationRequest (.write off value 0xF#4)) s t ∧ t.cfg off = w.merge (s.cfg off) value ∧
         (∀ k, k ≠ off → t.cfg k = s.cfg k) ∧ t.hostTx = s.hostTx ++ [.configDone] ∧ t = { s with pci := t.pci, hostTx := t.hostTx }) ∧
       (off = 0x58 → bit value 15 = true → ∃ t, Answers (.configurationRequest (.write off value 0xF#4)) s t ∧
         (∀ r < 17, (t.pair r).st = .disabled) ∧ t.mem = s.mem ∧ t.ctxs = s.ctxs ∧ t.plains = s.plains))))

/-- With EN = 1 and no move in progress, a host read of the window, on a path that reaches it, returns the bytes at WIN_BASE plus the offset, and a
host write is applied there (R514, R516, R518); with EN = 0 a read returns zeros, a write is discarded, and each leaves a REG_DISCARD entry. In
coherent operation BAR4 answers with Unsupported Request (R490). Stated for a working DDR5 tier, no poison, no bias mode and no write that waits for
copy-on-write. -/
def Obligations.WindowReadsAndWritesDeviceMemory : Prop :=
  ∀ (path : WinPath) (off len : Nat) (data : Bytes) (s : State), len ≠ 0 → off + len ≤ 0x20000000 → data.length = len → s.winReached path = true →
    (path = .bar4 → s.coherent = true →
      Answers (.winRead ⟨path, off⟩ len) s { s with hostTx := s.hostTx ++ [.unsupported off] } ∧
      Answers (.winWrite ⟨path, off⟩ data) s { s with hostTx := s.hostTx ++ [.unsupported off] }) ∧
    ((path = .bar4 → s.coherent = false) → s.win.moving = none → NothingHeld s →
      (s.ready = true → bit (s.reg 0x18000) 0 = true → (s.coherent = true → bit (s.reg 0x18000) 1 = false) → s.ddrFailed = false →
        (s.poison = [] → ∃ t, Answers (.winRead ⟨path, off⟩ len) s t ∧
          t.hostTx = s.hostTx ++ [.winData off (s.read (s.pairVal 0x18008 + off) len) []] ∧ t = { s with hostTx := t.hostTx, msc := t.msc }) ∧
        ∃ t, Answers (.winWrite ⟨path, off⟩ data) s t ∧ (∀ j (h : j < data.length), t.byte (s.pairVal 0x18008 + off + j) = data[j]) ∧
          (∀ a, (a < s.pairVal 0x18008 + off ∨ s.pairVal 0x18008 + off + data.length ≤ a) → t.byte a = s.byte a) ∧
          t = { s with mem := t.mem, poison := t.poison, msc := t.msc }) ∧
      (bit (s.reg 0x18000) 0 = false →
        (∃ t, Answers (.winRead ⟨path, off⟩ len) s t ∧ t.hostTx = s.hostTx ++ [.winData off (List.replicate len 0) []] ∧ Logged t 0x02 0 ∧
          t = { s with hostTx := t.hostTx, log := t.log, logHead := t.logHead }) ∧
        ∃ t, Answers (.winWrite ⟨path, off⟩ data) s t ∧ Logged t 0x02 0 ∧ t = { s with log := t.log, logHead := t.logHead }))

/-- A write of WIN_BASE_HI moves the window to the base that the held low half and it give, at a multiple of 2 MiB (R12, R516): at once without
coherence, and in coherent operation once the host has answered a back-invalidation of the whole window, WIN_STATUS.MOVING being 1 until then and its
dirty lines being written at the old addresses (R517). A base that would leave the mapped ranges is discarded and logged. A bias page whose bit is
written 1 becomes DEVICE, at once without coherence, and in coherent operation once the host has answered the back-invalidation of the page; a bit
written 0 makes its page SHARED at once (R519). A line that the host gives up for a device access changes nothing more. -/
def Obligations.WindowMovesAndBiasChanges : Prop :=
  ((∀ (hi : W32) (s : State) (base : Nat), s.ready = true → s.memOn = true →
     base = (s.heldLo 0x18008 &&& 0xFFE00000#32).toNat + bits hi 9 0 * 2 ^ 32 →
     (s.mapped base 0x20000000 = true → s.coherent = false → s.win.wait = [] →
       ∃ t, Answers (.winMove hi) s t ∧ t.pairVal 0x18008 = base ∧ t.win.moving = none ∧ t.reg 0x18004 = 0 ∧
         t = { s with regs := t.regs, held := t.held, win := t.win }) ∧
     (s.mapped base 0x20000000 = true → s.coherent = true →
       ∃ t, Answers (.winMove hi) s t ∧ t.win.moving = some base ∧ t.reg 0x18004 = 1 ∧ t.pairVal 0x18008 = s.pairVal 0x18008 ∧
         t.hostTx = s.hostTx ++ [.backInvalidate 0 0x20000000] ∧ t = { s with regs := t.regs, held := t.held, win := t.win, hostTx := t.hostTx }) ∧
     (s.mapped base 0x20000000 = false →
       ∃ t, Answers (.winMove hi) s t ∧ Logged t 0x02 0 ∧ t.pairVal 0x18008 = s.pairVal 0x18008 ∧ t = { s with log := t.log, logHead := t.logHead })) ∧
   (∀ (base : Nat) (dirty : List (Nat × Bytes)) (s : State), s.win.moving = some base → base < 2 ^ 64 → s.win.wait = [] → NothingHeld s → s.ddrFailed = false →
     ∃ t, Answers (.backInvalidationDone (.move dirty)) s t ∧ t.pairVal 0x18008 = base ∧ t.win.moving = none ∧ t.reg 0x18004 = 0 ∧
       (∀ off data, dirty = [(off, data)] → off + data.length ≤ 0x20000000 → ∀ j (h : j < data.length), t.byte (s.pairVal 0x18008 + off + j) = data[j]) ∧
       (∀ a, (∀ d ∈ dirty, a < s.pairVal 0x18008 + d.1 ∨ s.pairVal 0x18008 + d.1 + d.2.length ≤ a) → t.byte a = s.byte a) ∧
       t = { s with regs := t.regs, win := t.win, mem := t.mem, poison := t.poison, msc := t.msc })) ∧
  ((∀ (w : Fin 8) (value : W32) (s : State), s.ready = true → s.memOn = true → s.coherent = false →
     ∃ t, Answers (.winBiasSet w value) s t ∧ (∀ i < 32, t.biasDevice (32 * w + i) = bit value i) ∧
       (∀ k < 256, k / 32 ≠ w.val → t.biasDevice k = s.biasDevice k) ∧ t.hostTx = s.hostTx ∧ t.mem = s.mem) ∧
   (∀ (w : Fin 8) (value : W32) (i : Nat) (s : State), s.ready = true → s.memOn = true → s.coherent = true → i < 32 → bit value i = true →
     s.biasDevice (32 * w + i) = false → s.win.pages = [] →
     ∃ t, Answers (.winBiasSet w value) s t ∧ t.biasDevice (32 * w + i) = false ∧ 32 * w.val + i ∈ t.win.pages ∧
       .backInvalidate (2097152 * (32 * w + i)) 2097152 ∈ t.hostTx) ∧
   (∀ (k : Nat) (dirty : List (Nat × Bytes)) (s : State), k < 256 → k ∈ s.win.pages →
     ∃ t, Answers (.backInvalidationDone (.biasPage k dirty)) s t ∧ t.biasDevice k = true ∧ k ∉ t.win.pages ∧
       (∀ j < 256, j ≠ k → t.biasDevice j = s.biasDevice j) ∧ (dirty = [] → t = { s with regs := t.regs, win := t.win }) ∧
       t = { s with regs := t.regs, win := t.win, mem := t.mem, poison := t.poison, msc := t.msc, cow := t.cow }) ∧
   (∀ (off : Nat) (s : State), Answers (.backInvalidationDone (.line off)) s s))

/-- NET_XFER on a queue pair that the ring pair may use sends its request, an RDMA WRITE with the device's bytes or an RDMA READ, with the current
packet sequence number, and holds the transfer (R525, R530); while the priority of its frames is paused the request waits (R524); one on a queue pair
it may not use completes with ETH_QP_INVALID before anything moves (R531). A NET_XFER whose transfer is whole, with no write that waits, completes
with status 0 and adds 1 to OBJ where SIG_EN is set; one whose queue pair entered ERROR completes with ETH_QP_ERROR and adds nothing (R531, R706). -/
def Obligations.NetXferSendsAndCompletes : Prop :=
  ((∀ (r : Fin 17) (e : Words) (s : State), AtEntry s r e 0x07 [(2, 0x3FFFC000), (3, 0xFF000000)] 10 → nxDev e % 64 = 0 → nxBytes e % 64 = 0 →
     nxBytes e ≠ 0 → nxBytes e ≤ 0x80000000 → s.objBad r e = false → s.qpOk r (nxQp e) = true →
     s.refused (pairCtx r) (nxDev e) (nxBytes e) (! cpDir e) = none → (cpDir e = true → s.poisoned (nxDev e) (nxBytes e) = false) →
     s.portUp (s.qpPort (nxQp e)) = true →
     ∃ t o, Answers (.netXfer r e) s t ∧ (t.pair r).cur = some e ∧
       (t.qp (nxQp e)).xfers = (s.qp (nxQp e)).xfers ++ [⟨some r, cpDir e, wordAt e 4, dword e 5, nxDev e, nxBytes e, 0, false, [], (s.qpWord (nxQp e) 2).toNat⟩] ∧
       o = (if cpDir e
         then .write (nxQp e) (s.qpWord (nxQp e) 2).toNat (wordAt e 4) (dword e 5) (s.read (nxDev e) (nxBytes e))
         else .read (nxQp e) ((s.qpWord (nxQp e) 2).toNat % 2 ^ 24) (wordAt e 4) (dword e 5) (nxBytes e)) ∧
       (EthReady s (nxQp e) → t.ethTx = s.ethTx ++ [o] ∧ t.ethWait = s.ethWait) ∧
       (¬ EthReady s (nxQp e) → t.ethTx = s.ethTx ∧ ∃ n, t.ethWait = s.ethWait ++ [(s.qpPort (nxQp e), s.qpPrio (nxQp e), o, n)]) ∧
       (∀ q, q ≠ nxQp e → t.qp q = s.qp q) ∧
       t = { s with pairs := t.pairs, qps := t.qps, qpx := t.qpx, ethTx := t.ethTx, ethWait := t.ethWait, regs := t.regs, msc := t.msc }) ∧
   (∀ (r : Fin 17) (e : Words) (s : State), AtEntry s r e 0x07 [(2, 0x3FFFC000), (3, 0xFF000000)] 10 → nxDev e % 64 = 0 → nxBytes e % 64 = 0 →
     nxBytes e ≠ 0 → nxBytes e ≤ 0x80000000 → s.objBad r e = false → s.qpOk r (nxQp e) = false →
     ∃ t, Answers (.netXfer r e) s t ∧ Completed s t r e 0x1002 ∧ OnlyPending s t ∧ t = { s with pairs := t.pairs, hostTx := t.hostTx, regs := t.regs })) ∧
  (∀ (r : Fin 17) (e : Words) (s : State) (x : Xfer),
     (s.pair r).cur = some e → entryOp e = 0x07 → (s.pair r).old = false → (s.pair r).ovf = [] → (s.pair r).lost = 0 → s.canPost r = true →
     s.xferOf (nxQp e) r = some x → (x.failed = false → x.bytes ≤ x.done ∧ s.pairWrites r = false) →
     ∃ t, Answers (.netXferComplete r) s t ∧ Completed s t r e (if x.failed then 0x1001 else 0) ∧
       (∀ o, t.obj o = if x.failed = false ∧ cpSig e = true ∧ o = cpObj e then s.obj o + 1 else s.obj o) ∧
       (∀ y ∈ (t.qp (nxQp e)).xfers, y.pair ≠ some r.val) ∧ (∀ q, q ≠ nxQp e → t.qp q = s.qp q) ∧
       OnlyPending s t ∧ t = { s with objs := t.objs, qpx := t.qpx, pairs := t.pairs, hostTx := t.hostTx, regs := t.regs })

/-- An incoming RDMA WRITE that its memory region admits is applied, and acknowledged once every byte is; an RDMA READ returns the bytes asked for
(R526, R528). A request that is not admitted is answered with a remote access error, changes no memory, and takes its queue pair to ERROR. Of the
requests, the one due by its packet sequence number runs; one that lies ahead is answered with a sequence error and changes nothing else (PRESUMED:
the InfiniBand transport, log entry 148). A response moves the oldest transfer of its queue pair on (R525, R531): an acknowledgement ends a WRITE,
read data are applied at their place in device memory, and a NAK takes the queue pair to ERROR, where every transfer that is not whole has failed. A
response with the CE mark is answered with a CNP, at most one in 50 µs (R529). Stated where the first transfer is a ring pair's and still open. -/
def Obligations.RdmaRequestsAndResponses : Prop :=
  ((∀ (q : Fin 512) (psn : BitVec 24) (rkey : W32) (va : W64) (data : Bytes) (ce : Bool) (s : State), EthReady s q → s.qpState q = 1 →
     psn = (s.qpWord q 3).setWidth 24 → s.mrAdmits q rkey va.toNat data.length true = true → s.refused none va.toNat data.length true = none → NothingHeld s →
     ∃ t pre, Answers (.rdmaWriteRequest q rkey va data ⟨psn, ce⟩) s t ∧ (∀ j (h : j < data.length), t.byte (va.toNat + j) = data[j]) ∧
       (∀ a, (a < va.toNat ∨ va.toNat + data.length ≤ a) → t.byte a = s.byte a) ∧ t.ethTx = s.ethTx ++ pre ++ [.ack q] ∧ t.qpState q = 1 ∧
       (t.qpWord q 3).toNat = ((s.qpWord q 3).toNat + s.packets q data.length) % 2 ^ 24 ∧ t.ctxs = s.ctxs ∧ t.objs = s.objs) ∧
   (∀ (q : Fin 512) (psn : BitVec 24) (rkey : W32) (va : W64) (len : Nat) (ce : Bool) (s : State), EthReady s q → s.qpState q = 1 →
     psn = (s.qpWord q 3).setWidth 24 →
     s.mrAdmits q rkey va.toNat len false = true → s.refused none va.toNat len false = none → s.poisoned va.toNat len = false →
     ∃ t pre, Answers (.rdmaReadRequest q rkey va len ⟨psn, ce⟩) s t ∧ t.ethTx = s.ethTx ++ pre ++ [.readData q (s.read va.toNat len)] ∧ t.qpState q = 1 ∧
       t.mem = s.mem ∧ t.poison = s.poison ∧ t.ctxs = s.ctxs ∧ t.objs = s.objs) ∧
   (∀ (q : Fin 512) (psn : BitVec 24) (rkey : W32) (va : W64) (data : Bytes) (ce : Bool) (s : State), EthReady s q → s.qpState q = 1 →
     psn = (s.qpWord q 3).setWidth 24 → s.mrAdmits q rkey va.toNat data.length true = false → s.ckp.phase = .idle →
     ∃ t pre, Answers (.rdmaWriteRequest q rkey va data ⟨psn, ce⟩) s t ∧ t.ethTx = s.ethTx ++ pre ++ [.accessNak q] ∧ t.qpState q = 2 ∧
       t.mem = s.mem ∧ t.poison = s.poison ∧ t.ctxs = s.ctxs ∧ t.objs = s.objs) ∧
   (∀ (q : Fin 512) (psn : BitVec 24) (rkey : W32) (va : W64) (data : Bytes) (ce : Bool) (s : State), EthReady s q → s.qpState q = 1 →
     psn ≠ (s.qpWord q 3).setWidth 24 → (psn - (s.qpWord q 3).setWidth 24).toNat < 2 ^ 23 →
     ∃ t pre, Answers (.rdmaWriteRequest q rkey va data ⟨psn, ce⟩) s t ∧ t.ethTx = s.ethTx ++ pre ++ [.sequenceNak q] ∧
       t = { s with qpx := t.qpx, ethTx := t.ethTx, regs := t.regs })) ∧
  (∀ (q : Fin 512) (s : State) (x : Xfer) (rest : List Xfer) (p : Nat),
     s.portUp (s.qpPort q) = true → s.qpState q = 1 → (s.qp q).xfers = x :: rest → x.pair = some p → x.failed = false → x.done < x.bytes →
     (x.write = true → ∃ t, Answers (.rdmaResponse q ⟨.ack, false⟩) s t ∧ (t.qp q).xfers = { x with done := x.bytes } :: rest ∧ (t.qp q).retries = 0 ∧
       t = { s with qpx := t.qpx, regs := t.regs }) ∧
     (∀ data : Bytes, x.write = false → data.length ≤ x.bytes - x.done → NothingHeld s → s.ddrFailed = false →
       ∃ t, Answers (.rdmaResponse q ⟨.readData data, false⟩) s t ∧ (t.qp q).xfers = { x with done := x.done + data.length } :: rest ∧
         (∀ j (h : j < data.length), t.byte (x.dev + x.done + j) = data[j]) ∧
         (∀ a, (a < x.dev + x.done ∨ x.dev + x.done + data.length ≤ a) → t.byte a = s.byte a) ∧
         t = { s with qpx := t.qpx, regs := t.regs, mem := t.mem, poison := t.poison, msc := t.msc }) ∧
     (s.ckp.phase = .idle → ∃ t, Answers (.rdmaResponse q ⟨.nak, false⟩) s t ∧ t.qpState q = 2 ∧
       (∀ y ∈ (t.qp q).xfers, y.failed = true ∨ y.bytes ≤ y.done) ∧ t.mem = s.mem ∧ t.ctxs = s.ctxs) ∧
     (x.write = true → EthReady s q → (s.qp q).cnpAt = none → ∃ t, Answers (.rdmaResponse q ⟨.ack, true⟩) s t ∧ t.ethTx = s.ethTx ++ [.cnp q] ∧
       (t.qp q).cnpAt = some s.time ∧ (t.qp q).xfers = { x with done := x.bytes } :: rest ∧ t = { s with qpx := t.qpx, ethTx := t.ethTx, regs := t.regs }))

/-- After 4 ms without an answer the oldest open transfer is sent again, at most seven times; then the queue pair enters ERROR (R525). A CNP halves
the rate limit of its queue pair, not below 1 Gb/s; 50 µs without one raise it by 10 Gb/s, up to the port rate (R529). A PFC frame pauses or releases
the priorities that it names and PFC_MASK enables; a frame that waits leaves when its priority is released (R524). -/
def Obligations.RetriesAndCongestion : Prop :=
  (∀ (q : Fin 512) (s : State) (x : Xfer) (rest : List Xfer), (s.qp q).xfers = x :: rest → x.done < x.bytes → x.failed = false → s.qpState q = 1 → EthReady s q →
     ((s.qp q).retries < 7 → ∃ t o, Answers (.qpAckTimeout q) s t ∧ (t.qp q).retries = (s.qp q).retries + 1 ∧ (t.qp q).xfers = (s.qp q).xfers ∧
       t.ethTx = s.ethTx ++ [o] ∧ t.qps = s.qps ∧ t.mem = s.mem ∧
       (x.write = false → o = .read q ((x.psn + x.done / s.mtu q) % 2 ^ 24) x.rkey (x.va + x.done) (x.bytes - x.done)) ∧
       (∀ r, x.write = true → x.pair = some r → o = .write q x.psn x.rkey x.va (s.read x.dev x.bytes))) ∧
     (7 ≤ (s.qp q).retries → s.ckp.phase = .idle → ∃ t, Answers (.qpAckTimeout q) s t ∧ t.qpState q = 2 ∧ t.ethTx = s.ethTx ∧ t.mem = s.mem)) ∧
  ((∀ (q : Fin 512) (s : State), s.portUp (s.qpPort q) = true →
     ∃ t, Answers (.cnpReceive q) s t ∧ t.qp q = { s.qp q with rate := max 1000000000 ((s.qp q).rate / 2) } ∧
       (∀ k, k ≠ q.val → t.qp k = s.qp k) ∧ t = { s with qpx := t.qpx, regs := t.regs }) ∧
   (∀ (q : Fin 512) (s : State),
     ∃ t, Answers (.cnpRateRaise q) s t ∧ t.qp q = { s.qp q with rate := min 800000000000 ((s.qp q).rate + 10000000000) } ∧
       (∀ k, k ≠ q.val → t.qp k = s.qp k) ∧ t = { s with qpx := t.qpx }) ∧
   (∀ (port : Fin 2) (prio pause : BitVec 8) (s : State), s.portUp port = true → storeGet zeroNat s.pfc port < 256 → s.ethWait = [] →
     ∃ t, Answers (.pfcFrame port prio pause) s t ∧
       (∀ k < 8, (storeGet zeroNat t.pfc port).testBit k =
         if prio.getLsbD k = true ∧ bit (s.reg (0x80010 + 0x20 * port.val)) (8 + k) = true then pause.getLsbD k
         else (storeGet zeroNat s.pfc port).testBit k) ∧ t = { s with pfc := t.pfc, regs := t.regs }) ∧
   (∀ (port : Fin 2) (prio pause : BitVec 8) (k n : Nat) (o : EthOut) (s : State), s.portUp port = true → storeGet zeroNat s.pfc port < 256 →
     s.ethWait = [(port.val, k, o, n)] → k < 8 → prio.getLsbD k = true → bit (s.reg (0x80010 + 0x20 * port.val)) (8 + k) = true → pause.getLsbD k = false →
     ∃ t, Answers (.pfcFrame port prio pause) s t ∧ t.ethTx = s.ethTx ++ [o] ∧ t.ethWait = [] ∧
       t = { s with pfc := t.pfc, regs := t.regs, ethTx := t.ethTx, ethWait := t.ethWait }))

/-- On a port that is up, an ARP request or Neighbour Solicitation for one of the port's GIDs is answered; every other frame that is not RoCEv2 is
dropped and counted in ETH_DROP (R524). A frame with a bad frame check sequence is counted in ETH_FCS_ERR, and with every frame dropped so are its
port's codewords (R538). LOAD copies an entry into the DATA registers; COMMIT writes the DATA registers into the entry (R537): a GID always, a queue
pair that goes from RESET to READY. A READY commit of one that is not RESET is discarded, sets REFUSED and is logged. A region commit that its context
does not grant leaves it invalid (R527). -/
def Obligations.EthFramesAndTables : Prop :=
  (∀ (port : Fin 2) (s : State), s.portUp port = true → (storeGet zeroNat s.pfc port).testBit 0 = false →
     (∀ ip : BitVec 32, s.ownGid port (0xFFFF * 2 ^ 32 + ip.toNat) = true →
       ∃ t, Answers (.arpRequest port ip) s t ∧ t.ethTx = s.ethTx ++ [.arpReply port ip] ∧ t = { s with ethTx := t.ethTx, regs := t.regs }) ∧
     (∀ gid : BitVec 128, s.ownGid port gid.toNat = true →
       ∃ t, Answers (.neighbourSolicitation port gid) s t ∧ t.ethTx = s.ethTx ++ [.neighbour port gid] ∧
         t = { s with ethTx := t.ethTx, regs := t.regs }) ∧
     (∀ i ip gid c n, (i = .ethFrameDrop ⟨port, false, c, n⟩ ∨ i = .arpRequest port ip ∧ s.ownGid port (0xFFFF * 2 ^ 32 + ip.toNat) = false ∨
         i = .neighbourSolicitation port gid ∧ s.ownGid port gid.toNat = false) →
       ∃ t, Answers i s t ∧ t.reg (0x8041C + 0x40 * port) = satAdd (s.reg (0x8041C + 0x40 * port)) 1 ∧ t.ethTx = s.ethTx ∧ t = { s with regs := t.regs }) ∧
     (∀ f : FrameObs, f.port = port → ∃ t, Answers (.ethFrameDrop f) s t ∧ t.reg (0x80408 + 0x40 * port) = satAdd (s.reg (0x80408 + 0x40 * port)) (b2n f.fcsBad) ∧
       t.reg (0x8040C + 0x40 * port) = satAdd (s.reg (0x8040C + 0x40 * port)) f.corrected ∧
       t.reg (0x80410 + 0x40 * port) = satAdd (s.reg (0x80410 + 0x40 * port)) f.failed ∧
       (f.fcsBad = true → t.reg (0x8041C + 0x40 * port) = s.reg (0x8041C + 0x40 * port)) ∧ t = { s with regs := t.regs })) ∧
  ((∀ (t' : EthTable) (i : BitVec 12) (s : State), s.ready = true → s.memOn = true → i.toNat < ethSize t' →
     ∃ t, Answers (.ethSelLoad t' i) s t ∧ (∀ k < ethWords t', t.reg (ethSelReg t' + 4 + 4 * k) = wordAt (s.ethEntry t' i.toNat) k) ∧
       bits (t.reg (ethSelReg t')) 11 0 = i.toNat ∧ t = { s with regs := t.regs }) ∧
   (∀ (t' : EthTable) (i : BitVec 12) (s : State), s.ready = true → s.memOn = true → i.toNat < ethSize t' →
     (t' = .gid ∨ t' = .qp ∧ bits (s.reg 0x80204) 31 30 = 1 ∧ s.qpState i.toNat = 0 ∨ t' = .mr ∧ s.mrOk (s.ethData .mr) = true) →
     ∃ t, Answers (.ethSelCommit t' i) s t ∧ t.ethEntry t' i.toNat = s.ethData t' ∧ bit (t.reg (ethSelReg t')) 29 = false ∧
       (∀ (u : EthTable) (k : Nat), (u ≠ t' ∨ k ≠ i.toNat) → t.ethEntry u k = s.ethEntry u k) ∧
       t = { s with regs := t.regs, gids := t.gids, qps := t.qps, mrs := t.mrs }) ∧
   (∀ (i : BitVec 12) (s : State), s.ready = true → s.memOn = true → i.toNat < 512 → bits (s.reg 0x80204) 31 30 = 1 → s.qpState i.toNat ≠ 0 →
     ∃ t, Answers (.ethSelCommit .qp i) s t ∧ bit (t.reg 0x80200) 29 = true ∧ Logged t 0x02 0 ∧
       t = { s with regs := t.regs, log := t.log, logHead := t.logHead }) ∧
   (∀ (i : BitVec 12) (s : State), s.ready = true → s.memOn = true → s.mrOk (s.ethData .mr) = false →
     ∃ t, Answers (.ethSelCommit .mr i) s t ∧ bit (t.reg 0x80300) 29 = true ∧ bit (t.mrWord i.toNat 0) 31 = false ∧
       t = { s with regs := t.regs, mrs := t.mrs }))

/-- A drain reads the snapshot area first, then pool copies, oldest first, then live pages in ascending order, and writes what it has read to its tier
(R551, R552, R553). Stated of a drain to the flash tier, within the bytes of the flash that are the engine's. The manifest is written once the data
and the verification record are durable; when it is durable the checkpoint is prepared, and CKP_PREPARED is posted; CKP_COMMIT writes the root, and
completes with 0 once that is durable, after CKP_COMMITTED. A write the flash cannot take abandons the drain, which ends copy-on-write and sets
ABANDONED; a root record that it was writing is then the old or the new one (R560, R563, R565). -/
def Obligations.CheckpointDrainsAndCommits : Prop :=
  (∀ (s : State) (slot : Nat) (seq : W32), s.ckp.phase = .drain → OnFlash s.ckp slot seq → s.cowActive = true →
     (∀ a, a = s.areaBase + 65536 * s.ckp.area → s.ckp.area < areaBytes (manPlains s.ckp.hdr) / 65536 → s.ckp.left ≠ [] →
       s.refused none a 65536 false = none → s.cellPoisoned a 65536 = false →
       flashOk (flashBase s + (s.dataBase slot s.ckp.hdr + 65536 * s.ckp.area)) 65536 = true →
       ∃ t, Answers .ckpDrainRead s t ∧ t.flashTx = s.flashTx ++
           [.write (flashBase s + (s.dataBase slot s.ckp.hdr + 65536 * s.ckp.area)) (s.readCells a 65536)] ∧
         t.ckp.area = s.ckp.area + 1 ∧ t.ckp.left = s.ckp.left ∧ t.ckp.data = storePutRun zeroByte s.ckp.data (65536 * s.ckp.area) (s.readCells a 65536) ∧
         t = { s with ckp := t.ckp, flashTx := t.flashTx, msc := t.msc }) ∧
     (∀ p page rest lo n off, s.ckp.area = areaBytes (manPlains s.ckp.hdr) / 65536 → s.cow.pool = (p, page) :: rest →
       pageRun page s.ckp.ranges (areaBytes (manPlains s.ckp.hdr)) = some (lo, n, off) → (∃ q ∈ s.ckp.left, q ≠ page) →
       s.refused none (s.poolAddr p + (lo - pageAddr page)) n false = none → s.cellPoisoned (s.poolAddr p + (lo - pageAddr page)) n = false →
       flashOk (flashBase s + (s.dataBase slot s.ckp.hdr + off)) n = true →
       ∃ t, Answers .ckpDrainRead s t ∧ t.cow = { s.cow with pool := rest } ∧ t.flashTx = s.flashTx ++
           [.write (flashBase s + (s.dataBase slot s.ckp.hdr + off)) (s.readCells (s.poolAddr p + (lo - pageAddr page)) n)] ∧
         t.ckp.left = s.ckp.left.filter (· ≠ page) ∧ t = { s with ckp := t.ckp, cow := t.cow, flashTx := t.flashTx, msc := t.msc }) ∧
     (∀ page rest lo n off, s.ckp.area = areaBytes (manPlains s.ckp.hdr) / 65536 → s.cow.pool = [] → s.ckp.left = page :: rest → rest ≠ [] →
       s.cow.waiting = [] → s.acks = [] → s.win.reads = [] → s.ddrLost = none →
       pageRun page s.ckp.ranges (areaBytes (manPlains s.ckp.hdr)) = some (lo, n, off) → s.refused none lo n false = none →
       s.cellPoisoned lo n = false → flashOk (flashBase s + (s.dataBase slot s.ckp.hdr + off)) n = true →
       ∃ t, Answers .ckpDrainRead s t ∧ t.ckp.left = rest ∧ t.flashTx = s.flashTx ++
           [.write (flashBase s + (s.dataBase slot s.ckp.hdr + off)) (s.readCells lo n)] ∧
         t.pageEntry page = (s.reg 0x20024).toNat ∧
         (∀ a, (a < s.pairVal 0x20028 + 4 * page ∨ s.pairVal 0x20028 + 4 * page + 4 ≤ a) → t.cell a = s.cell a) ∧
         t = { s with ckp := t.ckp, mem := t.mem, poison := t.poison, flashTx := t.flashTx, msc := t.msc })) ∧
  (∀ (s : State) (slot : Nat) (seq : W32) (r : Fin 17) (e : Words), OnFlash s.ckp slot seq →
     (s.ckp.phase = .drain → s.drained = true → s.cowActive = false → s.ckp.reqs = [] → s.ckp.verify.isSome = true →
       flashOk (flashBase s + s.slotBase slot) s.ckp.manifest.length = true →
       ∃ t, Answers .ckpPrepare s t ∧ t.ckp.phase = .manifest ∧ t.flashTx = s.flashTx ++ [.write (flashBase s + s.slotBase slot) s.ckp.manifest] ∧
         t.ckp.reqs.length = 1 ∧ t = { s with ckp := t.ckp, flashTx := t.flashTx }) ∧
     (∀ q, s.ckp.reqs = [q] → q.tier = 1 → q.write = true → q.len = q.data.length → s.ckp.ctx < 16 → s.ckp.cmd = none → CanPost s s.ckp.ctx 0 →
       (s.ckp.phase = .manifest → bit (s.reg 0x88004) 3 = false → ∃ t, Answers (.flashAccessComplete true) s t ∧
         t.ckp = { s.ckp with phase := .prepared, reqs := [] } ∧ t.flashRead q.addr q.len = q.data ∧
         (∀ a n, (a + n ≤ q.addr ∨ q.addr + q.len ≤ a) → t.flashRead a n = s.flashRead a n) ∧
         Logged t 0x06 0 ∧ Posted s t s.ckp.ctx 0x12 0 ∧ t.flashTx = s.flashTx ∧ t.mem = s.mem ∧ t.ctxs = s.ctxs ∧ t.plains = s.plains) ∧
       (s.ckp.phase = .manifest ∨ s.ckp.phase = .roots → s.cow.waiting = [] → s.acks = [] → s.win.reads = [] →
         ∃ t, Answers (.flashAccessComplete false) s t ∧ t.ckp.phase = .idle ∧ t.ckp.reqs = [] ∧ Logged t 0x06 ckpTier ∧ t.cowActive = false ∧
           t.flashTx = s.flashTx ∧ bit (t.reg 0x88000) 28 = true ∧ Posted s t s.ckp.ctx 0x14 ckpTier ∧
           (∀ a n, (a + n ≤ q.addr ∨ q.addr + q.len ≤ a) → t.flashRead a n = s.flashRead a n) ∧
           (q.len = 128 → t.flashRead q.addr q.len = q.data ∨ t.flashRead q.addr q.len = s.flashRead q.addr q.len) ∧
           t.mem = s.mem ∧ (∀ m < 16, t.ctx m = { s.ctx m with deferred := false }) ∧ t.plains = s.plains)) ∧
     (r.val < 16 → AtEntry s r.val e 0x11 [(2, 0xFFFFFFFF)] 4 →
       (s.ckp.phase = .prepared → s.ckp.ctx = r.val → wordAt s.ckp.hdr 4 = wordAt e 3 →
         flashOk (flashBase s + 4096 * slot) (s.ckp.rootBytes slot seq).length = true →
         ∃ t, Answers (.ckpCommit r e) s t ∧ t.ckp.phase = .roots ∧ t.ckp.cmd = some (r.val, e) ∧ (t.pair r.val).cur = some e ∧
           t.flashTx = s.flashTx ++ [.write (flashBase s + 4096 * slot) (s.ckp.rootBytes slot seq)] ∧
           t = { s with ckp := t.ckp, flashTx := t.flashTx, pairs := t.pairs }) ∧
       (s.ckp.phase ≠ .prepared ∨ s.ckp.ctx ≠ r.val ∨ wordAt s.ckp.hdr 4 ≠ wordAt e 3 →
         ∃ t, Answers (.ckpCommit r e) s t ∧ Completed s t r.val e ckpState ∧ OnlyPending s t ∧
           t = { s with pairs := t.pairs, hostTx := t.hostTx, regs := t.regs })) ∧
     (∀ q, s.ckp.reqs = [q] → q.tier = 1 → q.write = true → q.len = q.data.length → s.ckp.phase = .roots → s.ckp.ctx = r.val → r.val < 16 →
       s.ckp.cmd = some (r.val, e) → (s.pair r.val).cur = some e → (s.pair r.val).old = false → CanPost s r.val 0 → CanPost s r.val 1 →
       ∃ t u, Answers (.flashAccessComplete true) s t ∧ t.ckp = Ckp.idle ∧ t.flashRead q.addr q.len = q.data ∧ Logged t 0x06 0 ∧
         Posted s u r.val 0x13 0 ∧ Completed u t r.val e 0 ∧ t.mem = s.mem ∧ (∀ m < 16, t.ctx m = { s.ctx m with deferred := false }) ∧
         t.plains = s.plains))

/-- CKP_RESTORE of the flash tier starts by reading its first root; while the context is not IDLE or the engine works it completes with CKP_STATE
(R568, R569, R561). FW_ACTIVATE with a staged plain image of the major version in force completes with 0: contexts that do not run switch at once, a
RUNNING one at its next boundary (R581, R582). -/
def Obligations.RestoreAndActivateStart : Prop :=
  (∀ (s : State) (r : Fin 17) (e : Words), r.val < 16 → AtEntry s r.val e 0x12 [(2, 0x07FFFFFF), (5, 0xFFFF)] 11 →
    ((s.ctx r).st = .idle → s.ckp.phase = .idle → s.ckp.reqs = [] → rsTier e = 1 → flashOk (flashBase s) 128 = true →
      ∃ t, Answers (.ckpRestore r e) s t ∧ t.ckp.phase = .find ∧ t.ckp.ctx = r.val ∧ t.ckp.cmd = some (r.val, e) ∧ t.ckp.tiers = [1] ∧
        t.flashTx = s.flashTx ++ [.read (flashBase s) 128] ∧ (t.pair r.val).cur = some e ∧
        t = { s with ckp := t.ckp, flashTx := t.flashTx, pairs := t.pairs }) ∧
    ((s.ctx r).st ≠ .idle ∨ s.ckp.phase ≠ .idle →
      ∃ t, Answers (.ckpRestore r e) s t ∧ Completed s t r.val e ckpState ∧ OnlyPending s t ∧
        t = { s with pairs := t.pairs, hostTx := t.hostTx, regs := t.regs })) ∧
  (∀ (s : State) (e : Words) (b : Bool) (i : FwImage), AtEntry s 16 e 0x13 [] 2 → s.sec.stagedPlain = some b → s.sec.plainRun ≠ some b →
    s.sec.image true b = some i → i.ver.toNat / 256 = (s.sec.version true).toNat / 256 →
    ∃ t u, Answers (.fwActivate 16 e) s t ∧ t.sec.plainRun = some b ∧
      (∀ m, m < 16 → (s.ctx m).st = .running → (t.ctx m) = { s.ctx m with fwNext := some i.ver }) ∧
      (∀ m, m < 16 → (s.ctx m).st ≠ .running → (t.ctx m).fwPlain = i.ver ∧ (t.ctx m).fwNext = none ∧ (t.ctx m).st = (s.ctx m).st) ∧
      u.pair 16 = { s.pair 16 with cur := some e, old := false, stale := false } ∧ Completed u t 16 e 0 ∧ OnlyPending s u ∧ OnlyPending s t ∧
      t.mem = s.mem ∧ t.plains = s.plains)

/-- Software writes a sync object unless a running context owns it (R200); it sets and clears copy-on-write, but not while a drain uses it or for
another context than the one tracked (R422, R426, R555). While writes wait, the end of tracking applies them without changing what any requester reads
(R425, R426). -/
def Obligations.ObjectWriteAndTracking : Prop :=
  ∀ s : State, s.ready = true → s.memOn = true →
    (∀ value : W32, (∀ m < 16, s.ownsObj m (bits (s.reg 0x50000) 13 0) = true → (s.ctx m).st ≠ .running) →
      ∃ t, Answers (.synObjValueWrite value) s t ∧ t.obj (bits (s.reg 0x50000) 13 0) = value ∧
        (∀ o, o ≠ bits (s.reg 0x50000) 13 0 → t.obj o = s.obj o) ∧ t = { s with objs := t.objs }) ∧
    (∀ (value : W32) (m : Nat), m < 16 → s.ownsObj m (bits (s.reg 0x50000) 13 0) = true → (s.ctx m).st = .running →
      ∃ t, Answers (.synObjValueWrite value) s t ∧ Logged t 0x02 0 ∧ t = { s with log := t.log, logHead := t.logHead }) ∧
    (∀ ctx : Fin 16, s.ckp.draining = false → s.cowActive = false →
      (s.reg 0x20024 ≠ 0xFFFFFFFF#32 → ∃ t, Answers (.cowActiveSet ctx) s t ∧ t.cowActive = true ∧ t.cowCtx = ctx.val ∧
        t.reg 0x20024 = s.reg 0x20024 + 1 ∧ (∀ o, o ≠ 0x20020 → o ≠ 0x20024 → t.reg o = s.reg o) ∧ t = { s with regs := t.regs }) ∧
      (s.reg 0x20024 = 0xFFFFFFFF#32 → ∃ t, Answers (.cowActiveSet ctx) s t ∧ t.cowActive = false ∧ Logged t 0x02 0 ∧
        t = { s with log := t.log, logHead := t.logHead })) ∧
    (∀ ctx : Fin 16, s.cowActive = true → s.ckp.draining = false → s.cowCtx = ctx.val → Answers (.cowActiveSet ctx) s s) ∧
    (∀ (ctx : Fin 16) (c : Instr), (c = .cowActiveSet ctx ∨ c = .cowActiveClear ctx) →
      s.ckp.draining = true ∨ s.cowActive = true ∧ s.cowCtx ≠ ctx.val →
      ∃ t, Answers c s t ∧ Logged t 0x02 0 ∧ t = { s with log := t.log, logHead := t.logHead }) ∧
    (∀ ctx : Fin 16, s.ckp.draining = false → s.cowActive = false ∨ s.cowCtx = ctx.val → Inv s → s.ddrLost = none →
      ∃ t, Answers (.cowActiveClear ctx) s t ∧ t.cowActive = false ∧ t.cowCtx = ctx.val ∧ t.cow.pool = [] ∧ t.cow.waiting = [] ∧
        (∀ a, t.byte a = s.byte a) ∧ t.objs = s.objs ∧ t.ctxs = s.ctxs ∧ t.plains = s.plains)

/-- The copy of a page that a write waits for (R423): the pool page takes what the page held, the entry of the page is set to the epoch, and the write
is applied; no requester reads anything else than before (R425). A write that finds no free pool page is counted (R425). -/
def Obligations.PageCopyKeepsTheOldPage : Prop :=
  ∀ (s : State) (w : CowWrite), Inv s → s.cow.waiting = [w] → s.acks = [] → s.win.reads = [] → s.ddrLost = none →
    (∀ (c : Instr) (i entry : Nat), (c = .cowPageCopy ∧ s.freeSlot = some i ∨ c = .cowPoolWaitEnd i ∧ w.counted = true ∧ s.poolFree i = true) →
      entry = s.pairVal 0x20028 + 4 * w.page → (s.poolAddr i + 65536 ≤ pageAddr w.page ∨ pageAddr w.page + 65536 ≤ s.poolAddr i) →
      (∀ b ∈ w.bytes, pageAddr w.page ≤ b.1 ∧ b.1 < pageAddr w.page + 65536) →
      (entry + 4 ≤ pageAddr w.page ∨ pageAddr w.page + 65536 ≤ entry) → (entry + 4 ≤ s.poolAddr i ∨ s.poolAddr i + 65536 ≤ entry) →
      ∃ t, Answers c s t ∧ (∀ k < 65536, t.cell (s.poolAddr i + k) = s.cell (pageAddr w.page + k)) ∧ t.pageEntry w.page = (s.reg 0x20024).toNat ∧
        t.cow.waiting = [] ∧ t.cow.pool = s.cow.pool ++ [(i, w.page)] ∧ t.reg 0x20040 = satAdd (s.reg 0x20040) 1 ∧
        (∀ o, o ≠ 0x20040 → t.reg o = s.reg o) ∧
        (∀ a, (a < s.poolAddr i ∨ s.poolAddr i + 65536 ≤ a) → (a < entry ∨ entry + 4 ≤ a) → t.byte a = s.byte a) ∧
        t = { s with mem := t.mem, poison := t.poison, msc := t.msc, cow := t.cow, regs := t.regs }) ∧
    (s.freeSlot = none → w.counted = false → ∃ t, Answers .cowPageCopy s t ∧ t.cow.waiting = [{ w with counted := true }] ∧
      t.reg 0x20044 = satAdd (s.reg 0x20044) 1 ∧ t = { s with cow := t.cow, regs := t.regs })

/-- A read counts a line that it corrects and poisons one that it cannot (R400, R401, R404). An error that the code of the MSC cannot correct
invalidates a clean line, which is counted, and poisons a dirty one (R402). A full pass starts, and passes are counted (R429). The hourly check
reports every unit whose corrected errors grew by more than the threshold (R580, R605). A stack or an RDIMM above 85 °C is refreshed at the higher
rate, one below 80 °C at the lower (R392, R396). A stack that fails is marked and stops the watershed, and the stores not yet applied are lost (R393,
R427). After a channel fails the tier refuses every request, the MSC drops its lines without writing them back, and the entry counts the dirty ones
(R397, R398); a DMA whose write to the tier was held back for copy-on-write stops with DDR_CHANNEL_FAIL (R397). -/
def Obligations.ScrubberTemperaturesAndFailures : Prop :=
  (∀ s : State,
     (s.ready = true → s.memOn = true → ∃ t, Answers .scrubFull s t ∧ bit (t.reg 0x2000C) 1 = true ∧ (∀ o, o ≠ 0x2000C → t.reg o = s.reg o) ∧
       t = { s with regs := t.regs }) ∧
     (∀ (addr : W64) (a : Nat), a = addr.toNat / 64 * 64 → s.mapped a 64 = true → (ddrBase ≤ a → s.ddrFailed = false) →
       (s.cellPoisoned a 64 = false → s.msc.dirtyAt (a / 64) = false →
         (∃ t, Answers (.scrubLine addr .corrected) s t ∧ t.reg (eccOf a) = satAdd (s.reg (eccOf a)) 1 ∧
           (∀ o, o ≠ eccOf a → t.reg o = s.reg o) ∧ t = { s with regs := t.regs }) ∧
         (∃ t, Answers (.scrubLine addr .uncorrectable) s t ∧ t.cellPoisoned a 64 = true ∧
           t.reg (eccOf a + 4) = satAdd (s.reg (eccOf a + 4)) 1 ∧ t.reg 0x20014 = satAdd (s.reg 0x20014) 1 ∧ (∀ b, t.cell b = s.cell b) ∧
           t = { s with regs := t.regs, poison := t.poison })) ∧
       (∀ e, s.msc.find (a / 2048) = some e → ∃ t, Answers (.scrubLine addr .mscUncorrectable) s t ∧ t.mem = s.mem ∧
         (e.dirty = 0 → t.reg (0x28008 + 0x40 * homeOf a) = satAdd (s.reg (0x28008 + 0x40 * homeOf a)) 1 ∧
           t = { s with regs := t.regs, msc := t.msc }) ∧
         (e.dirty ≠ 0 → t.cellPoisoned a 64 = true ∧ t = { s with regs := t.regs, poison := t.poison }))) ∧
     (∀ full : Bool, bit (s.reg 0x2000C) (b2n full) = true → ∃ t, Answers (.scrubPassEnd full) s t ∧
       (t.reg 0x20010).toNat = min 0xFFFF ((s.reg 0x20010).toNat + 1) ∧ (full = true → bit (t.reg 0x2000C) 1 = false) ∧
       (full = false → t.reg 0x2000C = s.reg 0x2000C) ∧ t = { s with regs := t.regs }) ∧
     (∃ t, Answers .eccRateCheck s t ∧ (∀ u ∈ eccUnits, storeGet zeroWord t.eccHour u.1 = s.reg u.2.1) ∧ OnlyPending s t ∧ t.mem = s.mem ∧
       ∀ u ∈ eccUnits, (s.reg 0x90008).toNat < (s.reg u.2.1).toNat - (storeGet zeroWord s.eccHour u.1).toNat →
         ∃ e ∈ t.log, bits (wordAt e 3) 31 24 = 8 ∧ wordAt e 4 = BitVec.ofNat 32 (u.2.2.1 * 2 ^ 28 + u.2.2.2) ∧
           wordAt e 6 = BitVec.ofNat 32 ((s.reg u.2.1).toNat - (storeGet zeroWord s.eccHour u.1).toNat))) ∧
  (∀ s : State,
     (∀ (c : Instr) (off lsb : Nat) (x : BitVec 8),
       ((∃ n, (c = .hbmTempHigh n x ∨ c = .hbmTempNormal n x) ∧ off = 0x30000 + 0x40 * n.val ∧ lsb = 16) ∨
        (∃ n, (c = .ddrTempHigh n x ∨ c = .ddrTempNormal n x) ∧ off = 0x38000 + 0x40 * n.val ∧ lsb = 8)) →
       ∃ t, Answers c s t ∧ bits (t.reg off) (lsb + 7) lsb = x.toNat ∧ (85 < x.toNat → bit (t.reg off) 0 = true) ∧
         (x.toNat < 80 → bit (t.reg off) 0 = false) ∧ (80 ≤ x.toNat → x.toNat ≤ 85 → bit (t.reg off) 0 = bit (s.reg off) 0) ∧
         (∀ o, o ≠ off → t.reg o = s.reg o) ∧ t = { s with regs := t.regs }) ∧
     (∀ n : Fin 12, s.dbg = .running → ∃ t, Answers (.hbmStackFail n) s t ∧ bits (t.reg (0x30000 + 0x40 * n.val)) 31 30 = 1 ∧
       bits (t.reg 0x98004) 23 16 = 6 ∧ t.dbg = (if bit (s.reg 0x98000) 5 then .scanning else .stopped) ∧ t.ctxs = s.ctxs ∧ t.plains = s.plains ∧
       t.cow.waiting = [] ∧ t.mem = s.mem) ∧
     (∀ (n : Fin 8) (lost : Nat), s.acks = [] → s.win.reads = [] →
       ((∀ w ∈ s.cow.waiting, w.page < 16777216) → ∃ t, Answers (.ddrChannelFail n lost) s t ∧ bit (t.reg (0x38000 + 0x40 * n.val)) 29 = true ∧
         (∀ c < 8, bit (t.reg (0x38000 + 0x40 * c)) 30 = false) ∧ Logged t 0x01 0x0702 ∧
         (∃ e r, t.log = e :: r ∧ wordAt e 5 = BitVec.ofNat 32 (s.msc.dirtyLines fun e => ddrBase ≤ e.line * 2048)) ∧
         (∀ x ∈ t.msc.sets, ∀ e ∈ x.2, e.line * 2048 < ddrBase) ∧ t.msc.wr = s.msc.wr ∧
         (∀ m a len write, ddrBase ≤ a → 0 < len → (t.refused m a len write).isSome = true) ∧ (∀ a < ddrBase, t.cell a = s.cell a) ∧
         t = { s with regs := t.regs, log := t.log, logHead := t.logHead, msc := t.msc, ddrLost := some lost }) ∧
       (∀ (w : CowWrite) (p : Fin 16) (j : Job) (m : Nat), s.cow.waiting = [w] → 16777216 ≤ w.page → w.owner = .cmd p j.id →
         (s.plain p).issued.find? (fun i => i.id = j.id) = none → (s.plain p).jobs.find? (fun x => x.id = j.id) = some j → s.owner p = some m →
         (s.ctx m).st = .running → s.resetting m = false → s.ckp.phase = .idle → bit (s.reg 0x98000) 4 = false → bit (s.reg (offPln p 8)) 31 = false →
         ∃ t, Answers (.ddrChannelFail n lost) s t ∧ (t.ctx m).st = .halted ∧ (t.plain p).pcc = .stopped ∧
           t.reg (offPln p 8) = BitVec.ofNat 32 (2 ^ 31 + 0x0702) ∧ t.reg (offPln p 0xC) = hdrTag j.words ∧ t.cow.waiting = [] ∧ t.mem = s.mem)))

/-- The margin controller raises the voltage offset of a plain, then lowers its clock, and at its lowest clock halts it (R576 to R579). The clocks of
the plains follow power and temperature, 25 MHz at a time and not below 2,000 MHz, and rise only while INPUT_W stands at least 50 W below LIMIT_W and
THERMAL does not stand (R676 to R679, R685, R698). -/
def Obligations.MarginsAndClocksStep : Prop :=
  (∀ (s : State) (p : Fin 16) (slack ro : BitVec 16) (off : Nat), off = 0x90100 + 0x10 * p.val →
     (bits (s.reg 0x90000) 23 16 ≤ slack.toNat → ∃ t, Answers (.ageMeasure p slack ro) s t ∧
       t.reg (off + 4) = BitVec.ofNat 32 (ro.toNat * 2 ^ 16 + slack.toNat) ∧ (∀ o, o ≠ off + 4 → t.reg o = s.reg o) ∧ t = { s with regs := t.regs }) ∧
     (slack.toNat < bits (s.reg 0x90000) 23 16 → bits (s.reg off) 19 14 < bits (s.reg 0x90000) 5 0 →
       ∃ t, Answers (.ageMeasure p slack ro) s t ∧ bits (t.reg off) 19 14 = bits (s.reg off) 19 14 + 1 ∧
         bits (t.reg off) 31 20 = bits (s.reg off) 31 20 ∧ (∀ o, o ≠ off → o ≠ off + 4 → t.reg o = s.reg o) ∧
         t = { s with regs := t.regs, plan := t.plan }) ∧
     (slack.toNat < bits (s.reg 0x90000) 23 16 → bits (s.reg 0x90000) 5 0 ≤ bits (s.reg off) 19 14 → 2000 < bits (s.reg off) 31 20 →
       ∃ t, Answers (.ageMeasure p slack ro) s t ∧ bits (t.reg off) 31 20 = bits (s.reg off) 31 20 - 25 ∧
         bits (t.reg off) 19 14 = bits (s.reg off) 19 14 ∧ bit (t.reg 0x90004) p.val = true ∧ Logged t 0x07 0 ∧
         t.ctxs = s.ctxs ∧ t.plains = s.plains ∧ t.mem = s.mem) ∧
     (∀ m, slack.toNat < bits (s.reg 0x90000) 23 16 → bits (s.reg 0x90000) 5 0 ≤ bits (s.reg off) 19 14 → bits (s.reg off) 31 20 ≤ 2000 →
       bit (s.reg 0x90004) (16 + p.val) = false → s.owner p = some m → (s.ctx m).st = .running → s.resetting m = false → s.ckp.phase = .idle →
       bit (s.reg (offPln p 8)) 31 = false → bit (s.reg 0x98000) 4 = false →
       ∃ t, Answers (.ageMeasure p slack ro) s t ∧ (t.ctx m).st = .halted ∧ (t.plain p).pcc = .stopped ∧ bit (t.reg 0x90004) (16 + p.val) = true ∧
         t.reg (offPln p 8) = BitVec.ofNat 32 (2 ^ 31 + 0x1201) ∧ t.reg off = s.reg off ∧ t.mem = s.mem ∧ t.objs = s.objs)) ∧
  (∀ s : State,
     (∀ w : BitVec 16, ∃ t, Answers (.pwrMeasure w) s t ∧ bits (t.reg 0xB8004) 15 0 = w.toNat ∧ bits (t.reg 0xB8004) 31 16 = bits (s.reg 0xB8004) 31 16 ∧
       (∀ o, o ≠ 0xB8004 → t.reg o = s.reg o) ∧ t = { s with regs := t.regs }) ∧
     (∃ t, Answers .pwrClockLower s t ∧ (∀ p, p < 16 → t.powerMhz p = max 2000 (s.powerMhz p - 25) ∧ t.marginMhz p = s.marginMhz p) ∧
       t = { s with regs := t.regs }) ∧
     (∀ limit : Nat, limit = max 1500 (min 3000 (bits (s.reg 0xB8000) 15 0)) →
       (bit (s.reg 0xB8004) 30 = false → bits (s.reg 0xB8004) 15 0 + 50 ≤ limit → ∃ t, Answers .pwrClockRaise s t ∧
         (∀ p, p < 16 → t.powerMhz p = max (s.powerMhz p) (min (s.powerMhz p + 25) (s.marginMhz p))) ∧
         (t.clocksLow = false → bit (t.reg 0xB8004) 31 = false) ∧ t = { s with regs := t.regs }) ∧
       (bit (s.reg 0xB8004) 30 = true ∨ limit < bits (s.reg 0xB8004) 15 0 + 50 → Answers .pwrClockRaise s s)) ∧
     ((∀ p, p < 16 → s.powerMhz p = 2000) → ∃ t, Answers .pwrFloor s t ∧ bit (t.reg 0xB8004) 29 = true ∧ Logged t 0x0D 0 ∧
       t = { s with regs := t.regs, log := t.log, logHead := t.logHead, free := t.free }) ∧
     (∀ x : BitVec 8, min 105 (bits (s.reg 0xB8008) 15 8) < x.toNat → ∃ t, Answers (.thermalThrottle x) s t ∧
       (∀ p, p < 16 → t.powerMhz p = max 2000 (s.powerMhz p - 25)) ∧ bit (t.reg 0xB8004) 30 = true ∧ bits (t.reg 0xB8008) 23 16 = x.toNat ∧
       t = { s with regs := t.regs }) ∧
     (∀ x : BitVec 8, x.toNat + 5 ≤ min 105 (bits (s.reg 0xB8008) 15 8) → ∃ t, Answers (.thermalRecover x) s t ∧
       bit (t.reg 0xB8004) 30 = false ∧ bits (t.reg 0xB8008) 23 16 = x.toNat ∧ (∀ p, p < 16 → t.powerMhz p = s.powerMhz p) ∧ t = { s with regs := t.regs }))

/-- A cold reset, from a pin, a register, power coming or going, or the end of a thermal trip, leaves everything but the flash and the fuses as at
reset (R675, R680, R682, R686, R692, R696); after a trip it waits for the sensors (R686). A write of the flash that is under way when the input falls
below 46.0 V completes (R682). -/
def Obligations.ColdResetKeepsFlashOnly : Prop :=
  ∀ s : State,
    (∀ c cause, (c = .rstN ∧ cause = 1 ∨ c = .rstCtrlCold ∧ cause = 2 ∧ s.ready = true ∧ s.memOn = true) → s.board.power = true → s.board.level ≠ .cold →
      s.board.cold = none →
      (s.board.trip = false → ∃ t, Answers c s t ∧ ColdStarted s t cause ∧ t.board.level = .cold ∧ t.board.power = true) ∧
      (s.board.trip = true → Answers c s { s with board := { s.board with cold := some cause } })) ∧
    (s.board.power = false → ∃ t, Answers .powerUp s t ∧ ColdStarted s t (if s.board.under then 3 else 0) ∧ t.board.power = true ∧ t.board.under = false) ∧
    (s.board.power = true → ∃ t, Answers .inputUndervolt s t ∧ ColdStarted s t 3 ∧ t.board.power = false ∧ t.board.under = true ∧
      ∀ q, s.flashWrites = [q] → q.len = q.data.length → t.flashRead q.addr q.len = q.data) ∧
    (s.board.power = true → ∃ t, Answers .overcurrentTrip s t ∧ ColdStarted s t 0 ∧ t.board.power = false ∧ t.board.under = false) ∧
    (∀ (x : BitVec 8) (cause : Nat), s.board.cold = some cause →
      (x.toNat ≤ 95 → ∃ t, Answers (.thermalResetRelease x) s t ∧ ColdStarted s t cause ∧ t.board.trip = false ∧ t.board.cold = none) ∧
      (95 < x.toNat → Answers (.thermalResetRelease x) s s))

/-- A warm reset of a device that is READY starts P2, writes the dirty lines of the MSC back (R409), and keeps device memory, the event log, the
timebase, the flash, the security block, the management core, and the epoch of the page table (R422, R629, R692, R696); contexts, plains, pairs and
objects are as at reset. -/
def Obligations.WarmResetKeepsMemoryAndLog : Prop :=
  ∀ (s : State) (c : Instr) (cause : Nat), (c = .warmN ∧ cause = 4 ∨ c = .rstCtrlWarm ∧ cause = 5 ∧ s.memOn = true) → Inv s → s.ready = true → s.board.power = true →
    s.board.level = .none → s.board.trip = false → s.board.waiting = false → s.ckp.phase = .idle → s.mgt.long = none → s.cow.waiting = [] →
    ∃ t, Answers c s t ∧ t.phase = 2 ∧ t.board.level = .warm ∧ t.reg 0xC0008 = BitVec.ofNat 32 (cause * 2 ^ 28) ∧
      t.reg 0xC000C = satAdd (s.reg 0xC000C) 1 ∧ t.reg 0x20024 = s.reg 0x20024 ∧ (∀ a, t.cell a = s.cell a) ∧ t.log = s.log ∧ t.logHead = s.logHead ∧
      t.time = s.time ∧ t.sec = s.sec ∧ t.mgt = s.mgt ∧ t.plan = s.plan ∧ t.flash = s.flash ∧ t.msc.dirtyLines (fun _ => true) = 0 ∧ (∀ m, t.ctx m = Ctx.reset) ∧ (∀ p, t.plain p = Plain.reset) ∧
      (∀ r, t.pair r = Pair.reset) ∧ (∀ o, t.obj o = 0) ∧ t.slots = [] ∧ (∀ b i k, t.tileOpen b i k = false)

/-- When PWR_EN falls or a junction reaches 110 °C every live context halts, the MSC is written back, writes of the flash complete, the links go down,
the gated rails go, and at 110 °C THERM_N goes low: the phase is P1, but FAILED stays FAILED (R632, R681, R686, R697). When PWR_EN rises, bring-up
that waits for it goes on with P2 (R680). -/
def Obligations.RailsFollowPowerEnable : Prop :=
  ∀ s : State,
    (∀ c : Instr, s.rails = true → (c = .rstPowerOff ∧ s.phase ≠ 7 ∨ ∃ x : BitVec 8, c = .rstThermal x ∧ 110 ≤ x.toNat) →
      ∃ t, Answers c s t ∧ t.phase = (if s.phase = 7 then 7 else 1) ∧ (∀ m, m < 16 → (s.ctx m).st.live = true → s.resetting m = false → (t.ctx m).st = .halted) ∧
        (∀ m, (s.ctx m).st.live = false → (t.ctx m).st = (s.ctx m).st) ∧ t.cow.pool = [] ∧ t.ckp.draining = false ∧ t.flashWrites = [] ∧
        t.msc.dirtyLines (fun _ => true) = 0 ∧ (∀ n, n < 64 → t.linkState n ≠ 1 ∧ t.linkState n ≠ 2) ∧ t.objs = s.objs ∧
        (c = .rstPowerOff → t.board = { s.board with pwrEn := false, waiting := true }) ∧
        (c ≠ .rstPowerOff → t.board = { s.board with trip := true, level := .none } ∧ t.thermN = false)) ∧
    (s.board.power = true → s.board.waiting = true → s.board.trip = false →
      ∃ t, Answers .pwrEnRise s t ∧ t.phase = 2 ∧ t.board = { s.board with pwrEn := true, waiting := false } ∧ (∀ m, t.ctx m = Ctx.reset) ∧
        (∀ p, t.plain p = Plain.reset))

/-- Bring-up goes from P0 to P4 and ends READY; a hub image that does not verify ends it in RECOVERY, a die or a stack that does not come up in FAILED
(R628, R632, R638, R640, R642, R680). -/
def Obligations.BringupReachesReady : Prop :=
  ∀ (s : State) (o : BringupObs), s.board.power = true → s.board.trip = false → s.board.waiting = false →
    (s.phase = 0 → (∀ b, s.sec.bootSlot false = some b → ∃ t, Answers (.bringupPhaseEnd o) s t ∧ t.phase = 1 ∧ t.sec.hubRun = some b) ∧
      (s.sec.bootSlot false = none → ∃ t, Answers (.bringupPhaseEnd o) s t ∧ t.phase = 6 ∧ bits (t.reg 0xB0000) 15 0 = 0x1502 ∧ t.board.level = .none)) ∧
    (s.phase = 1 → (s.board.pwrEn = true → ∃ t, Answers (.bringupPhaseEnd o) s t ∧ t.phase = 2 ∧ t.board.waiting = false) ∧
      (s.board.pwrEn = false → ∃ t, Answers (.bringupPhaseEnd o) s t ∧ t.phase = 1 ∧ t.board.waiting = true)) ∧
    (s.phase = 2 → (∀ b, o.dieOk = true → o.d2dOk = true → s.sec.bootSlot true = some b →
        ∃ t, Answers (.bringupPhaseEnd o) s t ∧ t.phase = 3 ∧ t.sec.plainRun = some b) ∧
      (o.dieOk = false → ∃ t, Answers (.bringupPhaseEnd o) s t ∧ t.phase = 7) ∧
      (o.dieOk = true → o.d2dOk = false → ∃ t, Answers (.bringupPhaseEnd o) s t ∧ t.phase = 7 ∧ bits (t.reg 0xB0000) 15 0 = 0x0101) ∧
      (o.dieOk = true → o.d2dOk = true → s.sec.bootSlot true = none →
        ∃ t, Answers (.bringupPhaseEnd o) s t ∧ t.phase = 7 ∧ bits (t.reg 0xB0000) 15 0 = 0x1502)) ∧
    (s.phase = 3 → (o.stacksOk = 0xFFF#12 → ∃ t, Answers (.bringupPhaseEnd o) s t ∧ t.phase = 4 ∧
        ∀ n, n < 12 → bits (t.reg (0x30000 + 0x40 * n)) 31 30 = 2) ∧
      (o.stacksOk ≠ 0xFFF#12 → ∃ t, Answers (.bringupPhaseEnd o) s t ∧ t.phase = 7 ∧ bits (t.reg 0xB0000) 15 0 = 0x0601)) ∧
    (s.phase = 4 → ∃ t, Answers (.bringupPhaseEnd o) s t ∧ t.ready = true ∧ t.board.level = .none ∧ t.ctxs = s.ctxs ∧ t.mem = s.mem ∧ t.log = s.log)

/-- A per-context reset stops the plains of the contexts named at once, abandons what they had issued, and settles their packets (R704); it is refused
while the watershed does not run (R694, R695). Once no request of the context is outstanding it takes effect on that context alone (R694, R696). -/
def Obligations.ContextResetTouchesItsContextOnly : Prop :=
  (∀ (s : State) (mask : BitVec 16), s.ready = true → s.memOn = true →
    (s.dbg = .running → (∀ m, m < 16 → mask.getLsbD m = true → s.resetting m = false) →
      ∃ t, Answers (.rstCtx mask) s t ∧ (∀ m, m < 16 → mask.getLsbD m = true → t.resetting m = true) ∧
        (∀ p m, p < 16 → s.owner p = some m → mask.getLsbD m = true →
          (t.plain p).pcc = .stopped ∧ (t.plain p).fetched = none ∧ (t.plain p).issued = [] ∧ (t.plain p).jobs = []) ∧
        (∀ p, p < 16 → (∀ m, s.owner p = some m → mask.getLsbD m = false) → t.plain p = s.plain p) ∧
        (∀ p m, p < 16 → s.owner p = some m → mask.getLsbD m = true → ∀ x ∈ t.outst, x.owner.plain? ≠ some p) ∧
        (∀ o, o ≠ 0xC0004 → t.reg o = s.reg o) ∧ t = { s with plains := t.plains, regs := t.regs, outst := t.outst, slots := t.slots }) ∧
    (s.dbg ≠ .running → (∀ m, m < 16 → mask.getLsbD m = true → s.resetting m = false) →
      ∃ t, Answers (.rstCtx mask) s t ∧ (∀ m, m < 16 → mask.getLsbD m = true → bit (t.reg 0xC0008) m = true) ∧
        t = { s with regs := t.regs, log := t.log, logHead := t.logHead })) ∧
  (∀ (s : State) (m : Fin 16), Inv s → s.resetting m = true → s.ctxBusy m = false → s.ckp.phase = .idle → s.cowActive = false →
    ∃ t, Answers (.ctxResetApply m) s t ∧ t.resetting m = false ∧ t.ctx m = { Ctx.reset with fwPlain := s.sec.version true } ∧
      (∀ k, k ≠ m.val → t.ctx k = s.ctx k) ∧ (∀ p, p < 16 → s.owner p = some m.val → t.plain p = Plain.reset) ∧
      (∀ p, p < 16 → s.owner p ≠ some m.val → t.plain p = s.plain p) ∧
      (∀ o, inRun (s.reg (0x50100 + 8 * m.val)) o = true ∨ inRun (s.reg (0x50104 + 8 * m.val)) o = true → t.obj o = 0) ∧
      ((∀ x ∈ s.qpx, x.2.xfers = []) → ∀ o, inRun (s.reg (0x50100 + 8 * m.val)) o = false → inRun (s.reg (0x50104 + 8 * m.val)) o = false → t.obj o = s.obj o) ∧
      (∀ a, t.cell a = s.cell a) ∧ Logged t 0x05 0)

/-- An alarm ends the sessions and the debug unlock, erases the keys where the policy says so, is logged, holds ALARM_N low, and raises vector 17,
which becomes pending while it is masked; a glitch also halts every RUNNING context (R651, R652, R666). -/
def Obligations.AlarmEndsSessions : Prop :=
  ∀ (s : State) (a : AlarmSrc), s.board.power = true →
    ∃ t, Answers (.secAlarm a) s t ∧ bit (t.reg 0xA8004) (alarmNum a) = true ∧ t.mgt.sessions = [] ∧ t.sec.unlocked = false ∧ t.alarmN = false ∧
      (s.sec.eraseAll = true → t.sec.idk = false ∧ t.sec.ak = none) ∧ (s.sec.eraseAll = false → t.sec.idk = s.sec.idk ∧ t.sec.ak = s.sec.ak) ∧
      ((s.pair 16).st ≠ .detached → bit (s.reg 0x10004) 31 = true → s.msixOn = true →
        (s.msixMasked 17 = false → HostOut.msix 17 ∈ t.hostTx) ∧ (s.msixMasked 17 = true → bit (t.reg 0xE8000) 17 = true)) ∧
      (2 ≤ alarmNum a → Logged t 0x0A 0 ∧ t.ctxs = s.ctxs ∧ t.plains = s.plains ∧ t.mem = s.mem) ∧
      (alarmNum a < 2 → ∀ m, m < 16 → s.resetting m = false → (s.ctx m).st = .running → (t.ctx m).st = .halted)

/-- A software stop freezes the device with cause 1 and can be resumed; the debug buffer, where SCAN_EN is set, is written before the device shows
STOPPED; RESUME goes on, and is refused where no resumable stop holds (R611, R615, R617, R618, R622). -/
def Obligations.WatershedStopsScansAndResumes : Prop :=
  ∀ s : State,
    (s.ready = true → s.memOn = true → s.dbg = .running → ∃ t, Answers .dbgCtrlStop s t ∧ t.dbg = (if bit (s.reg 0x98000) 5 then .scanning else .stopped) ∧
      t.reg 0x98004 = BitVec.ofNat 32 (2 ^ 29 + 2 ^ 16) ∧ t.pairVal 0x98050 = s.time.toNat ∧ t.ctxs = s.ctxs ∧ t.plains = s.plains ∧ t.mem = s.mem ∧
      t.objs = s.objs ∧ (bit (s.reg 0x98000) 5 = false → t.frozen = (List.range 16).filter fun m => (s.ctx m).st ≠ .idle)) ∧
    (s.dbg = .scanning → ∃ t, Answers .scanOutDone s t ∧ t.dbg = .stopped ∧ (t.frozen = (List.range 16).filter fun m => (s.ctx m).st ≠ .idle) ∧
      t.ctxs = s.ctxs ∧ t.plains = s.plains ∧ t.objs = s.objs ∧ (s.reg 0x98018 = 0 → t.mem = s.mem) ∧
      (∀ n, s.cowActive = false → s.cow.waiting = [] → (s.ddrFailed = false → s.ddrLost = none) → scanFixed ≤ (s.reg 0x98018).toNat * 2097152 →
        n = scanFixed + ((scanFit s.scanList ((s.reg 0x98018).toNat * 2097152 - scanFixed)).map fun x => memBytes x.2).sum →
        s.refused none (s.pairVal 0x98010) n true = none → t.read (s.pairVal 0x98010) 4 = leBytes 4 0x48535457)) ∧
    (s.ready = true → s.memOn = true → s.dbg = .stopped → bit (s.reg 0x98004) 29 = true →
      (∀ p, p < 16 → (s.plain p).resume = false ∧ ∀ j ∈ (s.plain p).jobs, j.coll = false) →
      ∃ t, Answers .dbgCtrlResume s t ∧ t.dbg = .running ∧ t.frozen = [] ∧ bit (t.reg 0x98004) 29 = false ∧ Logged t 0x09 0 ∧ t.ctxs = s.ctxs ∧
        t.plains = s.plains ∧ t.mem = s.mem) ∧
    (s.ready = true → s.memOn = true → (s.dbg ≠ .stopped ∨ bit (s.reg 0x98004) 29 = false) →
      ∃ t, Answers .dbgCtrlResume s t ∧ Logged t 0x02 0 ∧ t = { s with log := t.log, logHead := t.logHead })

/-- A register with no effect of its own takes its RW bits, clears W1C and sets W1S bits (R14 to R16); a _HI write applies both halves (R12), a _LO
read captures the _HI half, which the requester's next _HI read returns (R13). A register that a requester does not reach reads as zero, and a write
to it is discarded and logged (R492), as an access that is misaligned is (R11). -/
def Obligations.RegisterAccessesAreTyped : Prop :=
  ∀ (s : State) (v off : Nat) (value : W32) (w : RegRow), s.ready = true → s.mapOn v = true → off % 4 = 0 → regRow off = some w → w.kind = .plain →
    (s.mayAccess v off = true → w.half = .single → ∃ t, Answers (.regWrite v off value) s t ∧ t.reg off = w.merge (s.reg off) value ∧
      (∀ o, o ≠ off → t.reg o = s.reg o) ∧ t = { s with regs := t.regs }) ∧
    (s.mayAccess v off = true → w.half = .single → ∃ t, Answers (.pairLoRead v off) s t ∧ t = { s with hostTx := s.hostTx ++ [.regData v off (s.reg off)] }) ∧
    (∀ h, s.mayAccess v off = true → w.half = .hi → 4 ≤ off → storeGet (fun _ => none) s.capt (v * 2 ^ 21 + off - 4) = some h →
      ∃ t, Answers (.pairLoRead v off) s t ∧ t.hostTx = s.hostTx ++ [.regData v off h] ∧
        storeGet (fun _ => none) t.capt (v * 2 ^ 21 + off - 4) = none ∧ t = { s with capt := t.capt, hostTx := t.hostTx }) ∧
    (s.mayAccess v off = true → w.half = .hi → w.rw ≠ 0 → 4 ≤ off → ∃ t, Answers (.pairHiWrite v off value) s t ∧ t.reg off = value &&& BitVec.ofNat 32 w.rw ∧
      t.reg (off - 4) = s.heldLo (off - 4) ∧ (∀ o, o ≠ off → o + 4 ≠ off → t.reg o = s.reg o) ∧ t = { s with regs := t.regs, held := t.held }) ∧
    (s.mayAccess v off = true → w.half = .lo → (∀ x, regRow (off + 4) = some x → x.kind = .plain) → (regRow (off + 4)).isSome = true →
      ∃ t, Answers (.pairLoRead v off) s t ∧ t.hostTx = s.hostTx ++ [.regData v off (s.reg off)] ∧
        storeGet (fun _ => none) t.capt (v * 2 ^ 21 + off) = some (s.reg (off + 4)) ∧ t = { s with capt := t.capt, hostTx := t.hostTx }) ∧
    (v < 16 → s.mayAccess v off = false →
      Answers (.pairLoRead v off) s { s with hostTx := s.hostTx ++ [.regData v off 0] } ∧ ∃ t, Answers (.regWrite v off value) s t ∧ Logged t 0x02 0 ∧
      t = { s with log := t.log, logHead := t.logHead, regs := t.regs } ∧ (∀ o, t.reg o = (if o = 0xC8100 + 4 * v then s.logHead + 1 else s.reg o))) ∧
    (∀ (size : Nat) (write : Bool) (bad : Nat), (size ≠ 4 ∨ bad % 4 ≠ 0) → ∃ t, Answers (.regMisaligned v bad size write) s t ∧ Logged t 0x03 0 ∧
      t.hostTx = s.hostTx ++ (if write then [] else [.regData v bad 0]) ∧
      (∀ o, t.reg o = (if v < 16 ∧ o = 0xC8100 + 4 * v then s.logHead + 1 else s.reg o)) ∧
      t = { s with log := t.log, logHead := t.logHead, regs := t.regs, hostTx := t.hostTx })

/-- CNT_SEL captures a shadow set (R597), GLB_CLEAR clears the global counters (R600), and LOG_SEL captures the entry whose SEQ it names, for as long
as the log holds it (R609). -/
def Obligations.CapturesReadSetsAndEntries : Prop :=
  ∀ (s : State) (v : Nat), s.ready = true → 16 ≤ v → s.reaches v = true →
    (∀ (value : W32) (path unit : Nat), bit value 31 = true → path = bits value 9 8 → unit = bits value 7 0 → (path ≠ 3 ∨ unit < 16) →
      ∃ t, Answers (.cntSelCapture v value) s t ∧ storeGet (fun _ => []) t.cntRec 16 = storeGet zeroRec s.cntShadow (unit * 4 + path) ∧
        t = { s with views := t.views, cntRec := t.cntRec }) ∧
    (s.memOn = true → ∃ t, Answers .cntGlbClear s t ∧ (∀ k, t.glbVal k = 0) ∧ t.msc = { s.msc with rd := [], wr := [] } ∧
      (∀ n < 64, t.link n = { s.link n with txBytes := 0, rxBytes := 0 }) ∧ t = { s with glb := t.glb, msc := t.msc, links := t.links }) ∧
    (∀ seq : W32, Inv s → 1 ≤ (s.logHead - seq).toNat → (s.logHead - seq).toNat ≤ s.log.length →
      ∃ t, Answers (.logSelCapture v seq) s t ∧ wordAt (storeGet (fun _ => []) t.logRec 16) 2 = seq ∧
        storeGet (fun _ => []) t.logRec 16 ∈ s.log ∧ t = { s with views := t.views, logRec := t.logRec })

/-- The queries of the management core answer what R660 says; readings and nonces are free values (R654, R660). HB_TIMEOUT sets HB_LOST and logs it
(R665, R666). A long operation shows BUSY until it ends (R663, R669); at its end an erase ends the sessions, with the keys if asked (R660, R664), a
commit has written the boot record, raised the fused minimum and revoked the keys that its image names, and clears the journal (R643), and a scrub has
completed (R429). A DEBUG_UNLOCK that verifies opens the device and ends the sessions; one that does not counts a failure, and after eight it is
refused (R655, R656). -/
def Obligations.ManagementCommandsAnswer : Prop :=
  (∀ (s : State) (i : MgtIface) (token : BitVec 8), Serves s i →
     (∃ t, Answers (.getStatus i token) s t ∧ VendorAnswered s t i token 0 [s.reg 0xB0000, s.secStatus, s.reg 0xA8004] ∧
       t = { s with regs := t.regs, mgtTx := t.mgtTx }) ∧
     (∃ t, Answers (.getIdentity i token) s t ∧
       VendorAnswered s t i token 0 [s.shown 16 0xA8014, s.shown 16 0xA8018, s.shown 16 0xA801C, s.shown 16 0xA8020, s.shown 16 0xA8024, s.shown 16 0xA8028] ∧
       t = { s with regs := t.regs, mgtTx := t.mgtTx }) ∧
     (∀ sensor : W32, sensor.toNat < bits (s.reg 0xB0018) 7 0 → ∃ t w, Answers (.getSensor i token sensor) s t ∧ VendorAnswered s t i token 0 [w] ∧
       t = { s with regs := t.regs, mgtTx := t.mgtTx, free := t.free }) ∧
     (∀ word : W32, ∃ t p, Answers (.heartbeat i token word) s t ∧ VendorAnswered s t i token 0 [word, s.reg 0xB0000, p] ∧
       t = { s with regs := t.regs, mgtTx := t.mgtTx, free := t.free }) ∧
     (s.sec.fails < 8 → ∃ t ws, Answers (.debugChallenge i token) s t ∧ VendorAnswered s t i token 0 ws ∧ ws.length = 16 ∧
       t.sec = { s.sec with nonce := some (bytesOf ws) } ∧ t = { s with regs := t.regs, mgtTx := t.mgtTx, free := t.free, sec := t.sec }) ∧
     (s.board.power = true → bits (s.reg 0xB0008) 15 0 ≠ 0 → ∃ t, Answers .hbTimeout s t ∧ bit (t.reg 0xB0000) 23 = true ∧ Logged t 0x0D 0 ∧
       t = { s with regs := t.regs, log := t.log, logHead := t.logHead })) ∧
  (∀ s : State,
     (∀ (i : MgtIface) (token : BitVec 8) (word : W32), Serves s i →
       (∃ t, Answers (.keyErase i token word) s t ∧ t.mgt.long = some (.keyErase (bit word 0), i, token, true) ∧
         t.sec = { s.sec with journal := some (.erase (bit word 0)) } ∧ bits (t.reg 0xB0000) 28 24 = 0x11 ∧
         t = { s with regs := t.regs, mgtTx := t.mgtTx, mgt := t.mgt, sec := t.sec }) ∧
       (∀ b, s.sec.staged (bit word 0) = some b → ∃ t, Answers (.fwCommit i token word) s t ∧ t.mgt.long = some (.fwCommit (bit word 0), i, token, true) ∧
         t.sec = { s.sec with journal := some (.commit (bit word 0) b 0) } ∧ bits (t.reg 0xB0000) 28 24 = 0x12 ∧
         t = { s with regs := t.regs, mgtTx := t.mgtTx, mgt := t.mgt, sec := t.sec }) ∧
       (s.sec.staged (bit word 0) = none → ∃ t, Answers (.fwCommit i token word) s t ∧ VendorAnswered s t i token 0x1603 [] ∧
         t = { s with regs := t.regs, mgtTx := t.mgtTx }) ∧
       (∃ t, Answers (.fullScrub i token) s t ∧ t.mgt.long = some (.fullScrub, i, token, true) ∧ bit (t.reg 0x2000C) 1 = true ∧
         bits (t.reg 0xB0000) 28 24 = 0x13 ∧ t = { s with regs := t.regs, mgtTx := t.mgtTx, mgt := t.mgt }) ∧
       (∀ q : Bytes, 8 ≤ s.sec.fails → ∃ t, Answers (.debugUnlock i token q) s t ∧ VendorAnswered s t i token 0x1505 [] ∧
         t = { s with regs := t.regs, mgtTx := t.mgtTx }) ∧
       (∀ q : Bytes, s.sec.fails < 8 →
         (s.sec.unlockOk q = true → ∃ t, Answers (.debugUnlock i token q) s t ∧ t.sec.unlocked = true ∧ t.sec.nonce = none ∧ t.mgt.sessions = [] ∧
           t.sec.fails = s.sec.fails ∧ Logged t 0x0A 0 ∧ t.ctxs = s.ctxs ∧ t.plains = s.plains ∧ t.mem = s.mem) ∧
         (s.sec.unlockOk q = false → ∃ t, Answers (.debugUnlock i token q) s t ∧ t.sec.fails = s.sec.fails + 1 ∧ t.sec.nonce = none ∧
           (t.sec.unlocked = true → s.sec.unlocked = true) ∧ t.ctxs = s.ctxs ∧ t.plains = s.plains ∧ t.mem = s.mem))) ∧
     (∀ (op : LongOp) (i : MgtIface) (token : BitVec 8), s.mgt.long = some (op, i, token, true) →
       (∀ all, op = .keyErase all → s.sec.journal = some (.erase all) → ∃ t, Answers .longOperationEnd s t ∧ t.mgt.long = none ∧ t.mgt.sessions = [] ∧
         t.sec.journal = none ∧ (all = true → t.sec.idk = false ∧ t.sec.ak = none) ∧ (all = false → t.sec.idk = s.sec.idk ∧ t.sec.ak = s.sec.ak) ∧
         bits (t.reg 0xB0000) 28 24 = 0 ∧ t = { s with regs := t.regs, mgtTx := t.mgtTx, mgt := t.mgt, sec := t.sec }) ∧
       (∀ plain slot, op = .fwCommit plain → s.sec.journal = some (.commit plain slot 0) → s.sec.boot.length = 2 →
         ∃ t, Answers .longOperationEnd s t ∧ t.mgt.long = none ∧ t.sec.journal = none ∧ t.sec.staged plain = none ∧ t.sec.named plain = slot ∧
         t.sec.named (! plain) = s.sec.named (! plain) ∧
         (∀ x, s.sec.image plain slot = some x → t.sec.minSvn plain = max (s.sec.minSvn plain) x.svn ∧ t.sec.revoke = s.sec.revoke ||| x.revokes) ∧ t = { s with regs := t.regs, mgtTx := t.mgtTx, mgt := t.mgt, sec := t.sec }) ∧
       (op = .fullScrub → bit (s.reg 0x2000C) 1 = false → ∃ t, Answers .longOperationEnd s t ∧ t.mgt.long = none ∧ t.sec = s.sec ∧
         (i ≠ .mailbox → t.mgtTx = s.mgtTx ++ [.vendor i token false 0 [s.reg 0x20010]]))))

/-- MCTP control and PLDM types 0 and 2 answer as their standards say (R657, R658): the endpoint ID is kept in MGT_EID, the terminus ID is set, the
types are 0, 2 and 5, and a sensor that MGT_SENSORS lists is read. -/
def Obligations.MctpAndPldmQueriesAnswer : Prop :=
  ∀ s : State,
    (∀ (i : MgtIface) (l : Nat), eidLsb i = some l → s.hears i = true → s.mgt.long = none →
      (∀ e : BitVec 8, e ≠ 0 → e ≠ 0xFF#8 → ∃ t, Answers (.mctpControl i (.setEid e)) s t ∧ bits (t.reg 0xB000C) (l + 7) l = e.toNat ∧
        t.mgtTx = s.mgtTx ++ [.mctp i .success [e.setWidth 32]] ∧ t = { s with regs := t.regs, mgtTx := t.mgtTx }) ∧
      Answers (.mctpControl i .getEid) s { s with mgtTx := s.mgtTx ++ [.mctp i .success [BitVec.ofNat 32 (bits (s.reg 0xB000C) (l + 7) l)]] } ∧
      (∃ ws, Answers (.mctpControl i .getVersion) s { s with free := s.free + 1, mgtTx := s.mgtTx ++ [.mctp i .success ws] }) ∧
      Answers (.mctpControl i .getTypes) s { s with mgtTx := s.mgtTx ++ [.mctp i .success [0, 1, 5, 6, 0x7E]] } ∧
      Answers (.mctpControl i .other) s { s with mgtTx := s.mgtTx ++ [.mctp i .unsupported []] }) ∧
    (∀ i : MgtIface, PldmServed s i →
      Answers (.getTid i) s { s with mgtTx := s.mgtTx ++ [.pldm i .success [s.mgt.tid.setWidth 32]] } ∧
      (∀ x : BitVec 8, x ≠ 0 → x ≠ 0xFF#8 →
        Answers (.setTid i x) s { s with mgt := { s.mgt with tid := x }, mgtTx := s.mgtTx ++ [.pldm i .success []] }) ∧
      Answers (.getPldmTypes i) s { s with mgtTx := s.mgtTx ++ [.pldm i .success [0, 2, 5]] } ∧
      (∀ x : BitVec 8, x = 0 ∨ x = 2 ∨ x = 5 →
        (∃ ws, Answers (.getPldmVersion i x) s { s with free := s.free + 1, mgtTx := s.mgtTx ++ [.pldm i .success ws] }) ∧
        Answers (.getPldmCommands i x) s { s with mgtTx := s.mgtTx ++ [.pldm i .success (pldmCommands x.toNat)] }) ∧
      (∀ n, n < bits (s.reg 0xB0018) 7 0 →
        (∃ ws, Answers (.getPdr i n) s { s with free := s.free + 16, mgtTx := s.mgtTx ++ [.pldm i .success ws] }) ∧
        (∃ ws, Answers (.getSensorReading i n) s { s with free := s.free + 1, mgtTx := s.mgtTx ++ [.pldm i .success ws] })) ∧
      (∃ ws, Answers (.queryDeviceIdentifiers i) s { s with free := s.free + 1, mgtTx := s.mgtTx ++ [.pldm i .success ws] }) ∧
      Answers (.getFirmwareParameters i) s { s with mgtTx := s.mgtTx ++ [.pldm i .success
        [(s.sec.version false).setWidth 32, (s.sec.version true).setWidth 32, s.sec.stagedVersion false, s.sec.stagedVersion true]] })

/-- A firmware update runs from REQUEST_UPDATE to ACTIVATE_FIRMWARE: the image is placed in the slot that does not run, is staged once it verifies,
and nothing that runs changes before the commit (R641, R643, R658). -/
def Obligations.FirmwareUpdateStagesTheOtherSlot : Prop :=
  ∀ (s : State) (i : MgtIface), PldmServed s i →
    (s.mgt.update = none → Answers (.requestUpdate i) s
      { s with mgt := { s.mgt with update := some ⟨.learn, [], ⟨false, 0⟩, []⟩ }, mgtTx := s.mgtTx ++ [.pldm i .success []] }) ∧
    (∀ u, s.mgt.update = some u →
      Answers (.requestUpdate i) s { s with mgtTx := s.mgtTx ++ [.pldm i .wrongState []] } ∧
      Answers (.pldmGetStatus i) s { s with mgtTx := s.mgtTx ++ [.pldm i .success [BitVec.ofNat 32 (updCode u.st)]] } ∧
      Answers (.cancelUpdate i) s { s with mgt := { s.mgt with update := none }, mgtTx := s.mgtTx ++ [.pldm i .success []] } ∧
      (∀ cs : List Component, u.st = .learn → (∀ c ∈ cs, 512 ≤ c.bytes ∧ c.bytes ≤ 67108864) → Answers (.passComponentTable i cs) s
        { s with mgt := { s.mgt with update := some { u with st := .ready, table := cs } }, mgtTx := s.mgtTx ++ [.pldm i .success []] }) ∧
      (∀ c : Component, u.st = .ready → c ∈ u.table → 512 ≤ c.bytes → c.bytes ≤ 67108864 → ∃ t, Answers (.updateComponent i c) s t ∧
        t.mgt.update = some { u with st := .download, comp := c, data := [] } ∧ t.sec.staged c.plainPart = none ∧ t.sec.hubRun = s.sec.hubRun ∧
        t.sec.plainRun = s.sec.plainRun ∧ t.mgtTx = s.mgtTx ++ [.pldm i .success []] ∧ t = { s with mgt := t.mgt, sec := t.sec, mgtTx := t.mgtTx }) ∧
      (∀ (off : Nat) (data : Bytes), u.st = .download → off + data.length ≤ u.comp.bytes → Answers (.requestFirmwareData i off data) s
        { s with mgt := { s.mgt with update := some { u with data := storePutRun zeroByte u.data off data } }, mgtTx := s.mgtTx ++ [.pldm i .success []] }) ∧
      (u.st = .download → s.sec.slots.length = 4 → ∃ t, Answers (.transferComplete i) s t ∧ t.mgt.update = some { u with st := .verify, data := [] } ∧
        t.sec.image u.comp.plainPart (s.sec.target u.comp.plainPart) =
          some (imageOf u.comp.plainPart (storeGetRun zeroByte u.data 0 u.comp.bytes)) ∧
        (∀ b, s.sec.run u.comp.plainPart = some b → t.sec.image u.comp.plainPart b = s.sec.image u.comp.plainPart b) ∧
        (∀ b, t.sec.image (! u.comp.plainPart) b = s.sec.image (! u.comp.plainPart) b) ∧
        t.flashRead (slotAt u.comp.plainPart (s.sec.target u.comp.plainPart)) u.comp.bytes = storeGetRun zeroByte u.data 0 u.comp.bytes ∧
        t.mgtTx = s.mgtTx ++ [.pldm i .success []] ∧ t = { s with mgt := t.mgt, sec := t.sec, flash := t.flash, mgtTx := t.mgtTx }) ∧
      (u.st = .verify →
        (s.sec.slotOk u.comp.plainPart (s.sec.target u.comp.plainPart) = true → ∃ t, Answers (.verifyComplete i) s t ∧
          t.mgt.update = some { u with st := .apply } ∧ t.sec.staged u.comp.plainPart = some (s.sec.target u.comp.plainPart) ∧
          t.sec.hubRun = s.sec.hubRun ∧ t.sec.plainRun = s.sec.plainRun ∧ t.sec.slots = s.sec.slots ∧
          t.mgtTx = s.mgtTx ++ [.pldm i .success []] ∧ t = { s with mgt := t.mgt, sec := t.sec, mgtTx := t.mgtTx }) ∧
        (s.sec.slotOk u.comp.plainPart (s.sec.target u.comp.plainPart) = false → ∃ t w, Answers (.verifyComplete i) s t ∧
          t.mgt.update = some { u with st := .ready } ∧ t.sec = s.sec ∧ t.mgtTx = s.mgtTx ++ [.pldm i .failed [w]] ∧ (w = 0x1502#32 ∨ w = 0x1503#32) ∧
          Logged t 0x0D w.toNat ∧ t = { s with mgt := t.mgt, mgtTx := t.mgtTx, log := t.log, logHead := t.logHead })) ∧
      (u.st = .apply → Answers (.applyComplete i) s
        { s with mgt := { s.mgt with update := some { u with st := .ready } }, mgtTx := s.mgtTx ++ [.pldm i .success []] }) ∧
      (∀ b, u.st = .ready → s.sec.staged u.comp.plainPart = some b → ∃ t, Answers (.activateFirmware i) s t ∧ t.mgt.update = none ∧
        t.mgt.long = some (.fwCommit u.comp.plainPart, i, 0, false) ∧ t.sec = { s.sec with journal := some (.commit u.comp.plainPart b 0) } ∧
        t.mgtTx = s.mgtTx ++ [.pldm i .success []] ∧ t = { s with mgt := t.mgt, sec := t.sec, regs := t.regs, mgtTx := t.mgtTx }))

/-- The SPDM responder (R645 to R649, R653): a connection goes through version, capabilities and algorithms; with IDK and AK slot 0 holds the chain,
and challenges, signed measurements and key exchanges are signed with the AK over the chain or the blocks, what the requester sent and what the device
answers; without them slot 0 is empty and nothing is signed; at most four sessions are open; a session answers once its handshake has ended, until it
is ended. The form of the chain and the content of what is signed are the model's (log entry 150). -/
def Obligations.SpdmResponderAnswers : Prop :=
  ∀ (s : State) (i : MgtIface), i ≠ .mailbox → s.hears i = true → s.ready = true → s.mgt.long = none →
    (∃ t, Answers (.getVersion i) s t ∧ t.conn i = ⟨1, none⟩ ∧ t.mgtTx = s.mgtTx ++ [.spdm i (.version [0x12, 0x13])] ∧
      t = { s with mgt := t.mgt, mgtTx := t.mgtTx }) ∧
    (1 ≤ (s.conn i).stage → ∃ t, Answers (.getCapabilities i) s t ∧ (t.conn i).stage = max 2 (s.conn i).stage ∧
      t.mgtTx = s.mgtTx ++ [.spdm i (.capabilities 16 [.cert, .chal, .measSig, .measFresh, .encrypt, .mac, .keyEx, .hbeat, .keyUpd, .chunk])] ∧ t = { s with mgt := t.mgt, mgtTx := t.mgtTx }) ∧
    (2 ≤ (s.conn i).stage → ∃ t, Answers (.negotiateAlgorithms i) s t ∧ (t.conn i).stage = 3 ∧ 
      t.mgtTx = s.mgtTx ++ [.spdm i (.algorithms [.ecdsaP521, .sha512, .dheSecp521r1, .aes256Gcm, .keySchedule])] ∧
      t = { s with mgt := t.mgt, mgtTx := t.mgtTx }) ∧
    (3 ≤ (s.conn i).stage →
      (∀ a : Ak, s.sec.idk = true → s.sec.ak = some a →
        Answers (.getDigests i) s { s with mgtTx := s.mgtTx ++ [.spdm i (.digests (some (sha512 (s.sec.chain a))))] } ∧
        (∀ off len : Nat, off < (s.sec.chain a).length → ∃ t, Answers (.getCertificate i 0 off len) s t ∧
          (t.mgtTx = s.mgtTx ++ [.spdm i (.certificate (((s.sec.chain a).drop off).take len))] ∨
           t.mgtTx = s.mgtTx ++ [.spdm i (.error .largeResponse)] ∧ (t.conn i).large = some (.certificate (((s.sec.chain a).drop off).take len), 0)) ∧
          t = { s with free := t.free, mgt := t.mgt, mgtTx := t.mgtTx }) ∧
        (∀ off len : Nat, (s.sec.chain a).length ≤ off →
          Answers (.getCertificate i 0 off len) s { s with mgtTx := s.mgtTx ++ [.spdm i (.error .invalidRequest)] }) ∧
        (∀ nonce : Bytes, nonce.length = 32 → ∃ t own sig n, Answers (.challenge i 0 nonce) s t ∧ own.length = 32 ∧
          sig = Config.akSign a.key (sha512 (s.sec.chain a) ++ nonce ++ own) n ∧
          (t.mgtTx = s.mgtTx ++ [.spdm i (.challengeAuth own sig)] ∨
           t.mgtTx = s.mgtTx ++ [.spdm i (.error .largeResponse)] ∧ (t.conn i).large = some (.challengeAuth own sig, 0)) ∧
          t = { s with free := t.free, mgt := t.mgt, mgtTx := t.mgtTx }) ∧
        (∀ (k : BitVec 8) (nonce : Bytes), 1 ≤ k.toNat → k.toNat ≤ 6 → nonce.length = 32 → ∃ t own sig n,
          Answers (.getMeasurements i k true nonce) s t ∧ own.length = 32 ∧
          sig = Config.akSign a.key ((BitVec.ofNat 8 k.toNat :: s.measurement k.toNat) ++ nonce ++ own) n ∧
          (t.mgtTx = s.mgtTx ++ [.spdm i (.measurements [(k.toNat, s.measurement k.toNat)] own (some sig))] ∨
           t.mgtTx = s.mgtTx ++ [.spdm i (.error .largeResponse)] ∧
            (t.conn i).large = some (.measurements [(k.toNat, s.measurement k.toNat)] own (some sig), 0)) ∧
          t = { s with free := t.free, mgt := t.mgt, mgtTx := t.mgtTx }) ∧
        (∀ (q : BitVec 16) (share : Bytes), share.length = 132 → s.mgt.sessions.length < 4 → ∃ t id own sig n, Answers (.keyExchange i q share) s t ∧
          t.mgt.sessions = s.mgt.sessions ++ [(id, false)] ∧ id.toNat % 2 ^ 16 = q.toNat ∧ own.length = 132 ∧
          sig = Config.akSign a.key (sha512 (s.sec.chain a) ++ share ++ own) n ∧
          (t.mgtTx = s.mgtTx ++ [.spdm i (.keyExchangeRsp id own sig)] ∨
           t.mgtTx = s.mgtTx ++ [.spdm i (.error .largeResponse)] ∧ (t.conn i).large = some (.keyExchangeRsp id own sig, 0)) ∧
          t = { s with free := t.free, mgt := t.mgt, mgtTx := t.mgtTx }) ∧
        (∀ (q : BitVec 16) (share : Bytes), share.length = 132 → 4 ≤ s.mgt.sessions.length →
          Answers (.keyExchange i q share) s { s with mgtTx := s.mgtTx ++ [.spdm i (.error .sessionLimit)] })) ∧
      (s.sec.idk = false →
        Answers (.getDigests i) s { s with mgtTx := s.mgtTx ++ [.spdm i (.digests none)] } ∧
        (∀ off len : Nat, Answers (.getCertificate i 0 off len) s { s with mgtTx := s.mgtTx ++ [.spdm i (.error .invalidRequest)] }) ∧
        (∀ nonce : Bytes, nonce.length = 32 → Answers (.challenge i 0 nonce) s { s with mgtTx := s.mgtTx ++ [.spdm i (.error .unspecified)] }) ∧
        (∀ (q : BitVec 16) (share : Bytes), share.length = 132 →
          Answers (.keyExchange i q share) s { s with mgtTx := s.mgtTx ++ [.spdm i (.error .unspecified)] })) ∧
      (∀ k : BitVec 8, 1 ≤ k.toNat → k.toNat ≤ 6 → ∃ t n, Answers (.getMeasurements i k false []) s t ∧
        (t.mgtTx = s.mgtTx ++ [.spdm i (.measurements [(k.toNat, s.measurement k.toNat)] n none)] ∨
         t.mgtTx = s.mgtTx ++ [.spdm i (.error .largeResponse)] ∧
          (t.conn i).large = some (.measurements [(k.toNat, s.measurement k.toNat)] n none, 0)) ∧
        t = { s with free := t.free, mgt := t.mgt, mgtTx := t.mgtTx }) ∧
      (∀ id : W32, (id, false) ∈ s.mgt.sessions →
        (∃ t, Answers (.finish i id true) s t ∧ (id, true) ∈ t.mgt.sessions ∧ (id, false) ∉ t.mgt.sessions ∧
          t.mgtTx = s.mgtTx ++ [.spdm i .finishRsp] ∧ t = { s with mgt := t.mgt, mgtTx := t.mgtTx }) ∧
        (∃ t, Answers (.finish i id false) s t ∧ t.mgt.sessions = s.mgt.sessions.filter (fun x => x.1 ≠ id) ∧
          t.mgtTx = s.mgtTx ++ [.spdm i (.error .decryptError)] ∧ t = { s with mgt := t.mgt, mgtTx := t.mgtTx })) ∧
      (∀ id : W32, (id, true) ∈ s.mgt.sessions →
        Answers (.spdmHeartbeat i id) s { s with mgtTx := s.mgtTx ++ [.spdm i .heartbeatAck] } ∧
        Answers (.keyUpdate i id) s { s with mgtTx := s.mgtTx ++ [.spdm i .keyUpdateAck] } ∧
        (∃ t, Answers (.endSession i id) s t ∧ (∀ x ∈ t.mgt.sessions, x.1 ≠ id) ∧ t.mgtTx = s.mgtTx ++ [.spdm i .endSessionAck] ∧
          t = { s with mgt := t.mgt, mgtTx := t.mgtTx })) ∧
      (∀ (r : SpdmRsp) (k : Nat), (s.conn i).large = some (r, k) → ∃ t last, Answers (.chunkGet i k) s t ∧
        t.mgtTx = s.mgtTx ++ [.spdm i (.chunk k last r)] ∧ (t.conn i).large = (if last then none else some (r, k + 1)) ∧
        t = { s with free := t.free, mgt := t.mgt, mgtTx := t.mgtTx }))
end

