-- ==== Sys2Proof/Laws/Ckp.lean ====
section
/-! SUPPORT. How long what the checkpoint engine writes is, and how long a digest is. -/

namespace Sys2Proof.Machine

theorem leBytes_length (n x : Nat) : (leBytes n x).length = n := by
  induction n generalizing x with
  | zero => rfl
  | succ n ih => simp [leBytes, ih]

theorem beBytes_length (n x : Nat) : (beBytes n x).length = n := by simp [beBytes, leBytes_length]

theorem length_flatMap_const {α β : Type} (l : List α) (f : α → List β) (n : Nat) (h : ∀ a ∈ l, (f a).length = n) : (l.flatMap f).length = l.length * n := by
  induction l with
  | nil => simp
  | cons a r ih =>
    rw [List.flatMap_cons, List.length_append, h a (List.mem_cons_self ..), ih fun b hb => h b (List.mem_cons_of_mem _ hb), List.length_cons, Nat.add_mul, Nat.one_mul, Nat.add_comm]

theorem bytesOf_length (ws : Words) : (bytesOf ws).length = 4 * ws.length := by
  rw [bytesOf, length_flatMap_const _ _ 4 fun w _ => leBytes_length ..]
  omega

theorem shaBlock_length (h : List W64) (b : Bytes) (hh : h.length = 8) : (shaBlock h b).length = 8 := by
  have fold : ∀ (l : List (W64 × W64)) (v : List W64), v.length = 8 → (l.foldl (fun v x => shaRound v x.1 x.2) v).length = 8 := by
    intro l
    induction l with
    | nil => exact fun _ h => h
    | cons x r ih => exact fun v _ => ih (shaRound v x.1 x.2) rfl
  simp [shaBlock, hh, fold _ h hh]

theorem shaBlocks_length (n : Nat) (h : List W64) (b : Bytes) (hh : h.length = 8) : (shaBlocks n h b).length = 8 := by
  induction n generalizing h b with
  | zero => exact hh
  | succ n ih => exact ih _ _ (shaBlock_length h _ hh)

/-- A digest is 64 bytes (R157). -/
theorem sha512_length (m : Bytes) : (sha512 m).length = 64 := by
  rw [sha512, length_flatMap_const _ _ 8 fun x _ => beBytes_length .., shaBlocks_length _ _ _ (by decide)]

/-- A root record is 128 bytes (R559). -/
theorem Ckp.rootBytes_length (k : Ckp) (slot : Nat) (seq : W32) : (k.rootBytes slot seq).length = 128 := by
  simp [Ckp.rootBytes, bytesOf_length, leBytes_length, sha512_length]

/-- A manifest whose header, verification record and ranges are those that its header counts is M bytes (R558). -/
theorem Ckp.manifest_length (k : Ckp) (v : Bytes) (h : k.hdr.length = 64) (hv : k.verify = some v) (lv : v.length = 64) (hr : k.ranges.length = manRanges k.hdr) :
    k.manifest.length = manM k.hdr := by
  have e : 256 + 16 * manRanges k.hdr + 64 * chunksOf (manData k.hdr) ≤ manM k.hdr := by
    simp only [manM, manBytes, roundUp]
    omega
  have r : (k.ranges.flatMap fun r => leBytes 8 r.1 ++ leBytes 8 r.2).length = 16 * manRanges k.hdr := by
    rw [length_flatMap_const _ _ 16 fun r _ => by simp [leBytes_length], hr]
    omega
  have d : ((List.range (chunksOf (manData k.hdr))).flatMap fun i =>
      sha512 (storeGetRun zeroByte k.data (i * chunkBytes) (min chunkBytes (manData k.hdr - i * chunkBytes)))).length = 64 * chunksOf (manData k.hdr) := by
    rw [length_flatMap_const _ _ 64 fun i _ => sha512_length _, List.length_range]
    omega
  simp only [Ckp.manifest, List.length_append, List.length_replicate, bytesOf_length, List.length_take, h, hv, Option.getD_some, lv, r, d]
  omega

end Sys2Proof.Machine
end

