-- ==== Sys2Proof/Laws/State.lean ====
section
/-! SUPPORT. What each update of State leaves alone: one lemma per field and update, and what an update puts where it acts. -/

namespace Sys2Proof.Machine

/-! ### setReg -/

@[simp] theorem State.setReg_pending (s : State) (o : Nat) (v : W32) : (s.setReg o v).pending = s.pending := rfl
@[simp] theorem State.setReg_free (s : State) (o : Nat) (v : W32) : (s.setReg o v).free = s.free := rfl
@[simp] theorem State.setReg_time (s : State) (o : Nat) (v : W32) : (s.setReg o v).time = s.time := rfl
@[simp] theorem State.setReg_views (s : State) (o : Nat) (v : W32) : (s.setReg o v).views = s.views := rfl
@[simp] theorem State.setReg_held (s : State) (o : Nat) (v : W32) : (s.setReg o v).held = s.held := rfl
@[simp] theorem State.setReg_capt (s : State) (o : Nat) (v : W32) : (s.setReg o v).capt = s.capt := rfl
@[simp] theorem State.setReg_mem (s : State) (o : Nat) (v : W32) : (s.setReg o v).mem = s.mem := rfl
@[simp] theorem State.setReg_poison (s : State) (o : Nat) (v : W32) : (s.setReg o v).poison = s.poison := rfl
@[simp] theorem State.setReg_msc (s : State) (o : Nat) (v : W32) : (s.setReg o v).msc = s.msc := rfl
@[simp] theorem State.setReg_ddrLost (s : State) (o : Nat) (v : W32) : (s.setReg o v).ddrLost = s.ddrLost := rfl
@[simp] theorem State.setReg_cow (s : State) (o : Nat) (v : W32) : (s.setReg o v).cow = s.cow := rfl
@[simp] theorem State.setReg_field (s : State) (o : Nat) (v : W32) : (s.setReg o v).field = s.field := rfl
@[simp] theorem State.setReg_acc (s : State) (o : Nat) (v : W32) : (s.setReg o v).acc = s.acc := rfl
@[simp] theorem State.setReg_basin (s : State) (o : Nat) (v : W32) : (s.setReg o v).basin = s.basin := rfl
@[simp] theorem State.setReg_accOpen (s : State) (o : Nat) (v : W32) : (s.setReg o v).accOpen = s.accOpen := rfl
@[simp] theorem State.setReg_basinOpen (s : State) (o : Nat) (v : W32) : (s.setReg o v).basinOpen = s.basinOpen := rfl
@[simp] theorem State.setReg_accHold (s : State) (o : Nat) (v : W32) : (s.setReg o v).accHold = s.accHold := rfl
@[simp] theorem State.setReg_basinHold (s : State) (o : Nat) (v : W32) : (s.setReg o v).basinHold = s.basinHold := rfl
@[simp] theorem State.setReg_slots (s : State) (o : Nat) (v : W32) : (s.setReg o v).slots = s.slots := rfl
@[simp] theorem State.setReg_cmpGen (s : State) (o : Nat) (v : W32) : (s.setReg o v).cmpGen = s.cmpGen := rfl
@[simp] theorem State.setReg_objs (s : State) (o : Nat) (v : W32) : (s.setReg o v).objs = s.objs := rfl
@[simp] theorem State.setReg_ctxs (s : State) (o : Nat) (v : W32) : (s.setReg o v).ctxs = s.ctxs := rfl
@[simp] theorem State.setReg_plains (s : State) (o : Nat) (v : W32) : (s.setReg o v).plains = s.plains := rfl
@[simp] theorem State.setReg_cntLive (s : State) (o : Nat) (v : W32) : (s.setReg o v).cntLive = s.cntLive := rfl
@[simp] theorem State.setReg_cntShadow (s : State) (o : Nat) (v : W32) : (s.setReg o v).cntShadow = s.cntShadow := rfl
@[simp] theorem State.setReg_cntRec (s : State) (o : Nat) (v : W32) : (s.setReg o v).cntRec = s.cntRec := rfl
@[simp] theorem State.setReg_logRec (s : State) (o : Nat) (v : W32) : (s.setReg o v).logRec = s.logRec := rfl
@[simp] theorem State.setReg_glb (s : State) (o : Nat) (v : W32) : (s.setReg o v).glb = s.glb := rfl
@[simp] theorem State.setReg_log (s : State) (o : Nat) (v : W32) : (s.setReg o v).log = s.log := rfl
@[simp] theorem State.setReg_logHead (s : State) (o : Nat) (v : W32) : (s.setReg o v).logHead = s.logHead := rfl
@[simp] theorem State.setReg_outst (s : State) (o : Nat) (v : W32) : (s.setReg o v).outst = s.outst := rfl
@[simp] theorem State.setReg_txWait (s : State) (o : Nat) (v : W32) : (s.setReg o v).txWait = s.txWait := rfl
@[simp] theorem State.setReg_links (s : State) (o : Nat) (v : W32) : (s.setReg o v).links = s.links := rfl
@[simp] theorem State.setReg_routes (s : State) (o : Nat) (v : W32) : (s.setReg o v).routes = s.routes := rfl
@[simp] theorem State.setReg_reqNext (s : State) (o : Nat) (v : W32) : (s.setReg o v).reqNext = s.reqNext := rfl
@[simp] theorem State.setReg_linkTx (s : State) (o : Nat) (v : W32) : (s.setReg o v).linkTx = s.linkTx := rfl
@[simp] theorem State.setReg_pci (s : State) (o : Nat) (v : W32) : (s.setReg o v).pci = s.pci := rfl
@[simp] theorem State.setReg_pairs (s : State) (o : Nat) (v : W32) : (s.setReg o v).pairs = s.pairs := rfl
@[simp] theorem State.setReg_hostTx (s : State) (o : Nat) (v : W32) : (s.setReg o v).hostTx = s.hostTx := rfl
@[simp] theorem State.setReg_acks (s : State) (o : Nat) (v : W32) : (s.setReg o v).acks = s.acks := rfl
@[simp] theorem State.setReg_ackNext (s : State) (o : Nat) (v : W32) : (s.setReg o v).ackNext = s.ackNext := rfl
@[simp] theorem State.setReg_gids (s : State) (o : Nat) (v : W32) : (s.setReg o v).gids = s.gids := rfl
@[simp] theorem State.setReg_qps (s : State) (o : Nat) (v : W32) : (s.setReg o v).qps = s.qps := rfl
@[simp] theorem State.setReg_mrs (s : State) (o : Nat) (v : W32) : (s.setReg o v).mrs = s.mrs := rfl
@[simp] theorem State.setReg_qpx (s : State) (o : Nat) (v : W32) : (s.setReg o v).qpx = s.qpx := rfl
@[simp] theorem State.setReg_pfc (s : State) (o : Nat) (v : W32) : (s.setReg o v).pfc = s.pfc := rfl
@[simp] theorem State.setReg_ethWait (s : State) (o : Nat) (v : W32) : (s.setReg o v).ethWait = s.ethWait := rfl
@[simp] theorem State.setReg_ethTx (s : State) (o : Nat) (v : W32) : (s.setReg o v).ethTx = s.ethTx := rfl
@[simp] theorem State.setReg_ckp (s : State) (o : Nat) (v : W32) : (s.setReg o v).ckp = s.ckp := rfl
@[simp] theorem State.setReg_flashTx (s : State) (o : Nat) (v : W32) : (s.setReg o v).flashTx = s.flashTx := rfl
@[simp] theorem State.setReg_flash (s : State) (o : Nat) (v : W32) : (s.setReg o v).flash = s.flash := rfl
@[simp] theorem State.setReg_eccHour (s : State) (o : Nat) (v : W32) : (s.setReg o v).eccHour = s.eccHour := rfl
@[simp] theorem State.setReg_dbg (s : State) (o : Nat) (v : W32) : (s.setReg o v).dbg = s.dbg := rfl
@[simp] theorem State.setReg_frozen (s : State) (o : Nat) (v : W32) : (s.setReg o v).frozen = s.frozen := rfl
@[simp] theorem State.setReg_win (s : State) (o : Nat) (v : W32) : (s.setReg o v).win = s.win := rfl
@[simp] theorem State.setReg_plan (s : State) (o : Nat) (v : W32) : (s.setReg o v).plan = s.plan := rfl
@[simp] theorem State.setReg_sec (s : State) (o : Nat) (v : W32) : (s.setReg o v).sec = s.sec := rfl
@[simp] theorem State.setReg_mgt (s : State) (o : Nat) (v : W32) : (s.setReg o v).mgt = s.mgt := rfl
@[simp] theorem State.setReg_mgtTx (s : State) (o : Nat) (v : W32) : (s.setReg o v).mgtTx = s.mgtTx := rfl
@[simp] theorem State.setReg_board (s : State) (o : Nat) (v : W32) : (s.setReg o v).board = s.board := rfl

/-! ### setCtx -/

@[simp] theorem State.setCtx_pending (s : State) (m : Nat) (c : Ctx) : (s.setCtx m c).pending = s.pending := rfl
@[simp] theorem State.setCtx_free (s : State) (m : Nat) (c : Ctx) : (s.setCtx m c).free = s.free := rfl
@[simp] theorem State.setCtx_time (s : State) (m : Nat) (c : Ctx) : (s.setCtx m c).time = s.time := rfl
@[simp] theorem State.setCtx_regs (s : State) (m : Nat) (c : Ctx) : (s.setCtx m c).regs = s.regs := rfl
@[simp] theorem State.setCtx_views (s : State) (m : Nat) (c : Ctx) : (s.setCtx m c).views = s.views := rfl
@[simp] theorem State.setCtx_held (s : State) (m : Nat) (c : Ctx) : (s.setCtx m c).held = s.held := rfl
@[simp] theorem State.setCtx_capt (s : State) (m : Nat) (c : Ctx) : (s.setCtx m c).capt = s.capt := rfl
@[simp] theorem State.setCtx_mem (s : State) (m : Nat) (c : Ctx) : (s.setCtx m c).mem = s.mem := rfl
@[simp] theorem State.setCtx_poison (s : State) (m : Nat) (c : Ctx) : (s.setCtx m c).poison = s.poison := rfl
@[simp] theorem State.setCtx_msc (s : State) (m : Nat) (c : Ctx) : (s.setCtx m c).msc = s.msc := rfl
@[simp] theorem State.setCtx_ddrLost (s : State) (m : Nat) (c : Ctx) : (s.setCtx m c).ddrLost = s.ddrLost := rfl
@[simp] theorem State.setCtx_cow (s : State) (m : Nat) (c : Ctx) : (s.setCtx m c).cow = s.cow := rfl
@[simp] theorem State.setCtx_field (s : State) (m : Nat) (c : Ctx) : (s.setCtx m c).field = s.field := rfl
@[simp] theorem State.setCtx_acc (s : State) (m : Nat) (c : Ctx) : (s.setCtx m c).acc = s.acc := rfl
@[simp] theorem State.setCtx_basin (s : State) (m : Nat) (c : Ctx) : (s.setCtx m c).basin = s.basin := rfl
@[simp] theorem State.setCtx_accOpen (s : State) (m : Nat) (c : Ctx) : (s.setCtx m c).accOpen = s.accOpen := rfl
@[simp] theorem State.setCtx_basinOpen (s : State) (m : Nat) (c : Ctx) : (s.setCtx m c).basinOpen = s.basinOpen := rfl
@[simp] theorem State.setCtx_accHold (s : State) (m : Nat) (c : Ctx) : (s.setCtx m c).accHold = s.accHold := rfl
@[simp] theorem State.setCtx_basinHold (s : State) (m : Nat) (c : Ctx) : (s.setCtx m c).basinHold = s.basinHold := rfl
@[simp] theorem State.setCtx_slots (s : State) (m : Nat) (c : Ctx) : (s.setCtx m c).slots = s.slots := rfl
@[simp] theorem State.setCtx_cmpGen (s : State) (m : Nat) (c : Ctx) : (s.setCtx m c).cmpGen = s.cmpGen := rfl
@[simp] theorem State.setCtx_objs (s : State) (m : Nat) (c : Ctx) : (s.setCtx m c).objs = s.objs := rfl
@[simp] theorem State.setCtx_plains (s : State) (m : Nat) (c : Ctx) : (s.setCtx m c).plains = s.plains := rfl
@[simp] theorem State.setCtx_cntLive (s : State) (m : Nat) (c : Ctx) : (s.setCtx m c).cntLive = s.cntLive := rfl
@[simp] theorem State.setCtx_cntShadow (s : State) (m : Nat) (c : Ctx) : (s.setCtx m c).cntShadow = s.cntShadow := rfl
@[simp] theorem State.setCtx_cntRec (s : State) (m : Nat) (c : Ctx) : (s.setCtx m c).cntRec = s.cntRec := rfl
@[simp] theorem State.setCtx_logRec (s : State) (m : Nat) (c : Ctx) : (s.setCtx m c).logRec = s.logRec := rfl
@[simp] theorem State.setCtx_glb (s : State) (m : Nat) (c : Ctx) : (s.setCtx m c).glb = s.glb := rfl
@[simp] theorem State.setCtx_log (s : State) (m : Nat) (c : Ctx) : (s.setCtx m c).log = s.log := rfl
@[simp] theorem State.setCtx_logHead (s : State) (m : Nat) (c : Ctx) : (s.setCtx m c).logHead = s.logHead := rfl
@[simp] theorem State.setCtx_outst (s : State) (m : Nat) (c : Ctx) : (s.setCtx m c).outst = s.outst := rfl
@[simp] theorem State.setCtx_txWait (s : State) (m : Nat) (c : Ctx) : (s.setCtx m c).txWait = s.txWait := rfl
@[simp] theorem State.setCtx_links (s : State) (m : Nat) (c : Ctx) : (s.setCtx m c).links = s.links := rfl
@[simp] theorem State.setCtx_routes (s : State) (m : Nat) (c : Ctx) : (s.setCtx m c).routes = s.routes := rfl
@[simp] theorem State.setCtx_reqNext (s : State) (m : Nat) (c : Ctx) : (s.setCtx m c).reqNext = s.reqNext := rfl
@[simp] theorem State.setCtx_linkTx (s : State) (m : Nat) (c : Ctx) : (s.setCtx m c).linkTx = s.linkTx := rfl
@[simp] theorem State.setCtx_pci (s : State) (m : Nat) (c : Ctx) : (s.setCtx m c).pci = s.pci := rfl
@[simp] theorem State.setCtx_pairs (s : State) (m : Nat) (c : Ctx) : (s.setCtx m c).pairs = s.pairs := rfl
@[simp] theorem State.setCtx_hostTx (s : State) (m : Nat) (c : Ctx) : (s.setCtx m c).hostTx = s.hostTx := rfl
@[simp] theorem State.setCtx_acks (s : State) (m : Nat) (c : Ctx) : (s.setCtx m c).acks = s.acks := rfl
@[simp] theorem State.setCtx_ackNext (s : State) (m : Nat) (c : Ctx) : (s.setCtx m c).ackNext = s.ackNext := rfl
@[simp] theorem State.setCtx_gids (s : State) (m : Nat) (c : Ctx) : (s.setCtx m c).gids = s.gids := rfl
@[simp] theorem State.setCtx_qps (s : State) (m : Nat) (c : Ctx) : (s.setCtx m c).qps = s.qps := rfl
@[simp] theorem State.setCtx_mrs (s : State) (m : Nat) (c : Ctx) : (s.setCtx m c).mrs = s.mrs := rfl
@[simp] theorem State.setCtx_qpx (s : State) (m : Nat) (c : Ctx) : (s.setCtx m c).qpx = s.qpx := rfl
@[simp] theorem State.setCtx_pfc (s : State) (m : Nat) (c : Ctx) : (s.setCtx m c).pfc = s.pfc := rfl
@[simp] theorem State.setCtx_ethWait (s : State) (m : Nat) (c : Ctx) : (s.setCtx m c).ethWait = s.ethWait := rfl
@[simp] theorem State.setCtx_ethTx (s : State) (m : Nat) (c : Ctx) : (s.setCtx m c).ethTx = s.ethTx := rfl
@[simp] theorem State.setCtx_ckp (s : State) (m : Nat) (c : Ctx) : (s.setCtx m c).ckp = s.ckp := rfl
@[simp] theorem State.setCtx_flashTx (s : State) (m : Nat) (c : Ctx) : (s.setCtx m c).flashTx = s.flashTx := rfl
@[simp] theorem State.setCtx_flash (s : State) (m : Nat) (c : Ctx) : (s.setCtx m c).flash = s.flash := rfl
@[simp] theorem State.setCtx_eccHour (s : State) (m : Nat) (c : Ctx) : (s.setCtx m c).eccHour = s.eccHour := rfl
@[simp] theorem State.setCtx_dbg (s : State) (m : Nat) (c : Ctx) : (s.setCtx m c).dbg = s.dbg := rfl
@[simp] theorem State.setCtx_frozen (s : State) (m : Nat) (c : Ctx) : (s.setCtx m c).frozen = s.frozen := rfl
@[simp] theorem State.setCtx_win (s : State) (m : Nat) (c : Ctx) : (s.setCtx m c).win = s.win := rfl
@[simp] theorem State.setCtx_plan (s : State) (m : Nat) (c : Ctx) : (s.setCtx m c).plan = s.plan := rfl
@[simp] theorem State.setCtx_sec (s : State) (m : Nat) (c : Ctx) : (s.setCtx m c).sec = s.sec := rfl
@[simp] theorem State.setCtx_mgt (s : State) (m : Nat) (c : Ctx) : (s.setCtx m c).mgt = s.mgt := rfl
@[simp] theorem State.setCtx_mgtTx (s : State) (m : Nat) (c : Ctx) : (s.setCtx m c).mgtTx = s.mgtTx := rfl
@[simp] theorem State.setCtx_board (s : State) (m : Nat) (c : Ctx) : (s.setCtx m c).board = s.board := rfl

/-! ### setPlain -/

@[simp] theorem State.setPlain_pending (s : State) (p : Nat) (x : Plain) : (s.setPlain p x).pending = s.pending := rfl
@[simp] theorem State.setPlain_free (s : State) (p : Nat) (x : Plain) : (s.setPlain p x).free = s.free := rfl
@[simp] theorem State.setPlain_time (s : State) (p : Nat) (x : Plain) : (s.setPlain p x).time = s.time := rfl
@[simp] theorem State.setPlain_regs (s : State) (p : Nat) (x : Plain) : (s.setPlain p x).regs = s.regs := rfl
@[simp] theorem State.setPlain_views (s : State) (p : Nat) (x : Plain) : (s.setPlain p x).views = s.views := rfl
@[simp] theorem State.setPlain_held (s : State) (p : Nat) (x : Plain) : (s.setPlain p x).held = s.held := rfl
@[simp] theorem State.setPlain_capt (s : State) (p : Nat) (x : Plain) : (s.setPlain p x).capt = s.capt := rfl
@[simp] theorem State.setPlain_mem (s : State) (p : Nat) (x : Plain) : (s.setPlain p x).mem = s.mem := rfl
@[simp] theorem State.setPlain_poison (s : State) (p : Nat) (x : Plain) : (s.setPlain p x).poison = s.poison := rfl
@[simp] theorem State.setPlain_msc (s : State) (p : Nat) (x : Plain) : (s.setPlain p x).msc = s.msc := rfl
@[simp] theorem State.setPlain_ddrLost (s : State) (p : Nat) (x : Plain) : (s.setPlain p x).ddrLost = s.ddrLost := rfl
@[simp] theorem State.setPlain_cow (s : State) (p : Nat) (x : Plain) : (s.setPlain p x).cow = s.cow := rfl
@[simp] theorem State.setPlain_field (s : State) (p : Nat) (x : Plain) : (s.setPlain p x).field = s.field := rfl
@[simp] theorem State.setPlain_acc (s : State) (p : Nat) (x : Plain) : (s.setPlain p x).acc = s.acc := rfl
@[simp] theorem State.setPlain_basin (s : State) (p : Nat) (x : Plain) : (s.setPlain p x).basin = s.basin := rfl
@[simp] theorem State.setPlain_accOpen (s : State) (p : Nat) (x : Plain) : (s.setPlain p x).accOpen = s.accOpen := rfl
@[simp] theorem State.setPlain_basinOpen (s : State) (p : Nat) (x : Plain) : (s.setPlain p x).basinOpen = s.basinOpen := rfl
@[simp] theorem State.setPlain_accHold (s : State) (p : Nat) (x : Plain) : (s.setPlain p x).accHold = s.accHold := rfl
@[simp] theorem State.setPlain_basinHold (s : State) (p : Nat) (x : Plain) : (s.setPlain p x).basinHold = s.basinHold := rfl
@[simp] theorem State.setPlain_slots (s : State) (p : Nat) (x : Plain) : (s.setPlain p x).slots = s.slots := rfl
@[simp] theorem State.setPlain_cmpGen (s : State) (p : Nat) (x : Plain) : (s.setPlain p x).cmpGen = s.cmpGen := rfl
@[simp] theorem State.setPlain_objs (s : State) (p : Nat) (x : Plain) : (s.setPlain p x).objs = s.objs := rfl
@[simp] theorem State.setPlain_ctxs (s : State) (p : Nat) (x : Plain) : (s.setPlain p x).ctxs = s.ctxs := rfl
@[simp] theorem State.setPlain_cntLive (s : State) (p : Nat) (x : Plain) : (s.setPlain p x).cntLive = s.cntLive := rfl
@[simp] theorem State.setPlain_cntShadow (s : State) (p : Nat) (x : Plain) : (s.setPlain p x).cntShadow = s.cntShadow := rfl
@[simp] theorem State.setPlain_cntRec (s : State) (p : Nat) (x : Plain) : (s.setPlain p x).cntRec = s.cntRec := rfl
@[simp] theorem State.setPlain_logRec (s : State) (p : Nat) (x : Plain) : (s.setPlain p x).logRec = s.logRec := rfl
@[simp] theorem State.setPlain_glb (s : State) (p : Nat) (x : Plain) : (s.setPlain p x).glb = s.glb := rfl
@[simp] theorem State.setPlain_log (s : State) (p : Nat) (x : Plain) : (s.setPlain p x).log = s.log := rfl
@[simp] theorem State.setPlain_logHead (s : State) (p : Nat) (x : Plain) : (s.setPlain p x).logHead = s.logHead := rfl
@[simp] theorem State.setPlain_outst (s : State) (p : Nat) (x : Plain) : (s.setPlain p x).outst = s.outst := rfl
@[simp] theorem State.setPlain_txWait (s : State) (p : Nat) (x : Plain) : (s.setPlain p x).txWait = s.txWait := rfl
@[simp] theorem State.setPlain_links (s : State) (p : Nat) (x : Plain) : (s.setPlain p x).links = s.links := rfl
@[simp] theorem State.setPlain_routes (s : State) (p : Nat) (x : Plain) : (s.setPlain p x).routes = s.routes := rfl
@[simp] theorem State.setPlain_reqNext (s : State) (p : Nat) (x : Plain) : (s.setPlain p x).reqNext = s.reqNext := rfl
@[simp] theorem State.setPlain_linkTx (s : State) (p : Nat) (x : Plain) : (s.setPlain p x).linkTx = s.linkTx := rfl
@[simp] theorem State.setPlain_pci (s : State) (p : Nat) (x : Plain) : (s.setPlain p x).pci = s.pci := rfl
@[simp] theorem State.setPlain_pairs (s : State) (p : Nat) (x : Plain) : (s.setPlain p x).pairs = s.pairs := rfl
@[simp] theorem State.setPlain_hostTx (s : State) (p : Nat) (x : Plain) : (s.setPlain p x).hostTx = s.hostTx := rfl
@[simp] theorem State.setPlain_acks (s : State) (p : Nat) (x : Plain) : (s.setPlain p x).acks = s.acks := rfl
@[simp] theorem State.setPlain_ackNext (s : State) (p : Nat) (x : Plain) : (s.setPlain p x).ackNext = s.ackNext := rfl
@[simp] theorem State.setPlain_gids (s : State) (p : Nat) (x : Plain) : (s.setPlain p x).gids = s.gids := rfl
@[simp] theorem State.setPlain_qps (s : State) (p : Nat) (x : Plain) : (s.setPlain p x).qps = s.qps := rfl
@[simp] theorem State.setPlain_mrs (s : State) (p : Nat) (x : Plain) : (s.setPlain p x).mrs = s.mrs := rfl
@[simp] theorem State.setPlain_qpx (s : State) (p : Nat) (x : Plain) : (s.setPlain p x).qpx = s.qpx := rfl
@[simp] theorem State.setPlain_pfc (s : State) (p : Nat) (x : Plain) : (s.setPlain p x).pfc = s.pfc := rfl
@[simp] theorem State.setPlain_ethWait (s : State) (p : Nat) (x : Plain) : (s.setPlain p x).ethWait = s.ethWait := rfl
@[simp] theorem State.setPlain_ethTx (s : State) (p : Nat) (x : Plain) : (s.setPlain p x).ethTx = s.ethTx := rfl
@[simp] theorem State.setPlain_ckp (s : State) (p : Nat) (x : Plain) : (s.setPlain p x).ckp = s.ckp := rfl
@[simp] theorem State.setPlain_flashTx (s : State) (p : Nat) (x : Plain) : (s.setPlain p x).flashTx = s.flashTx := rfl
@[simp] theorem State.setPlain_flash (s : State) (p : Nat) (x : Plain) : (s.setPlain p x).flash = s.flash := rfl
@[simp] theorem State.setPlain_eccHour (s : State) (p : Nat) (x : Plain) : (s.setPlain p x).eccHour = s.eccHour := rfl
@[simp] theorem State.setPlain_dbg (s : State) (p : Nat) (x : Plain) : (s.setPlain p x).dbg = s.dbg := rfl
@[simp] theorem State.setPlain_frozen (s : State) (p : Nat) (x : Plain) : (s.setPlain p x).frozen = s.frozen := rfl
@[simp] theorem State.setPlain_win (s : State) (p : Nat) (x : Plain) : (s.setPlain p x).win = s.win := rfl
@[simp] theorem State.setPlain_plan (s : State) (p : Nat) (x : Plain) : (s.setPlain p x).plan = s.plan := rfl
@[simp] theorem State.setPlain_sec (s : State) (p : Nat) (x : Plain) : (s.setPlain p x).sec = s.sec := rfl
@[simp] theorem State.setPlain_mgt (s : State) (p : Nat) (x : Plain) : (s.setPlain p x).mgt = s.mgt := rfl
@[simp] theorem State.setPlain_mgtTx (s : State) (p : Nat) (x : Plain) : (s.setPlain p x).mgtTx = s.mgtTx := rfl
@[simp] theorem State.setPlain_board (s : State) (p : Nat) (x : Plain) : (s.setPlain p x).board = s.board := rfl

/-! ### setPair -/

@[simp] theorem State.setPair_pending (s : State) (r : Nat) (x : Pair) : (s.setPair r x).pending = s.pending := rfl
@[simp] theorem State.setPair_free (s : State) (r : Nat) (x : Pair) : (s.setPair r x).free = s.free := rfl
@[simp] theorem State.setPair_time (s : State) (r : Nat) (x : Pair) : (s.setPair r x).time = s.time := rfl
@[simp] theorem State.setPair_regs (s : State) (r : Nat) (x : Pair) : (s.setPair r x).regs = s.regs := rfl
@[simp] theorem State.setPair_views (s : State) (r : Nat) (x : Pair) : (s.setPair r x).views = s.views := rfl
@[simp] theorem State.setPair_held (s : State) (r : Nat) (x : Pair) : (s.setPair r x).held = s.held := rfl
@[simp] theorem State.setPair_capt (s : State) (r : Nat) (x : Pair) : (s.setPair r x).capt = s.capt := rfl
@[simp] theorem State.setPair_mem (s : State) (r : Nat) (x : Pair) : (s.setPair r x).mem = s.mem := rfl
@[simp] theorem State.setPair_poison (s : State) (r : Nat) (x : Pair) : (s.setPair r x).poison = s.poison := rfl
@[simp] theorem State.setPair_msc (s : State) (r : Nat) (x : Pair) : (s.setPair r x).msc = s.msc := rfl
@[simp] theorem State.setPair_ddrLost (s : State) (r : Nat) (x : Pair) : (s.setPair r x).ddrLost = s.ddrLost := rfl
@[simp] theorem State.setPair_cow (s : State) (r : Nat) (x : Pair) : (s.setPair r x).cow = s.cow := rfl
@[simp] theorem State.setPair_field (s : State) (r : Nat) (x : Pair) : (s.setPair r x).field = s.field := rfl
@[simp] theorem State.setPair_acc (s : State) (r : Nat) (x : Pair) : (s.setPair r x).acc = s.acc := rfl
@[simp] theorem State.setPair_basin (s : State) (r : Nat) (x : Pair) : (s.setPair r x).basin = s.basin := rfl
@[simp] theorem State.setPair_accOpen (s : State) (r : Nat) (x : Pair) : (s.setPair r x).accOpen = s.accOpen := rfl
@[simp] theorem State.setPair_basinOpen (s : State) (r : Nat) (x : Pair) : (s.setPair r x).basinOpen = s.basinOpen := rfl
@[simp] theorem State.setPair_accHold (s : State) (r : Nat) (x : Pair) : (s.setPair r x).accHold = s.accHold := rfl
@[simp] theorem State.setPair_basinHold (s : State) (r : Nat) (x : Pair) : (s.setPair r x).basinHold = s.basinHold := rfl
@[simp] theorem State.setPair_slots (s : State) (r : Nat) (x : Pair) : (s.setPair r x).slots = s.slots := rfl
@[simp] theorem State.setPair_cmpGen (s : State) (r : Nat) (x : Pair) : (s.setPair r x).cmpGen = s.cmpGen := rfl
@[simp] theorem State.setPair_objs (s : State) (r : Nat) (x : Pair) : (s.setPair r x).objs = s.objs := rfl
@[simp] theorem State.setPair_ctxs (s : State) (r : Nat) (x : Pair) : (s.setPair r x).ctxs = s.ctxs := rfl
@[simp] theorem State.setPair_plains (s : State) (r : Nat) (x : Pair) : (s.setPair r x).plains = s.plains := rfl
@[simp] theorem State.setPair_cntLive (s : State) (r : Nat) (x : Pair) : (s.setPair r x).cntLive = s.cntLive := rfl
@[simp] theorem State.setPair_cntShadow (s : State) (r : Nat) (x : Pair) : (s.setPair r x).cntShadow = s.cntShadow := rfl
@[simp] theorem State.setPair_cntRec (s : State) (r : Nat) (x : Pair) : (s.setPair r x).cntRec = s.cntRec := rfl
@[simp] theorem State.setPair_logRec (s : State) (r : Nat) (x : Pair) : (s.setPair r x).logRec = s.logRec := rfl
@[simp] theorem State.setPair_glb (s : State) (r : Nat) (x : Pair) : (s.setPair r x).glb = s.glb := rfl
@[simp] theorem State.setPair_log (s : State) (r : Nat) (x : Pair) : (s.setPair r x).log = s.log := rfl
@[simp] theorem State.setPair_logHead (s : State) (r : Nat) (x : Pair) : (s.setPair r x).logHead = s.logHead := rfl
@[simp] theorem State.setPair_outst (s : State) (r : Nat) (x : Pair) : (s.setPair r x).outst = s.outst := rfl
@[simp] theorem State.setPair_txWait (s : State) (r : Nat) (x : Pair) : (s.setPair r x).txWait = s.txWait := rfl
@[simp] theorem State.setPair_links (s : State) (r : Nat) (x : Pair) : (s.setPair r x).links = s.links := rfl
@[simp] theorem State.setPair_routes (s : State) (r : Nat) (x : Pair) : (s.setPair r x).routes = s.routes := rfl
@[simp] theorem State.setPair_reqNext (s : State) (r : Nat) (x : Pair) : (s.setPair r x).reqNext = s.reqNext := rfl
@[simp] theorem State.setPair_linkTx (s : State) (r : Nat) (x : Pair) : (s.setPair r x).linkTx = s.linkTx := rfl
@[simp] theorem State.setPair_pci (s : State) (r : Nat) (x : Pair) : (s.setPair r x).pci = s.pci := rfl
@[simp] theorem State.setPair_hostTx (s : State) (r : Nat) (x : Pair) : (s.setPair r x).hostTx = s.hostTx := rfl
@[simp] theorem State.setPair_acks (s : State) (r : Nat) (x : Pair) : (s.setPair r x).acks = s.acks := rfl
@[simp] theorem State.setPair_ackNext (s : State) (r : Nat) (x : Pair) : (s.setPair r x).ackNext = s.ackNext := rfl
@[simp] theorem State.setPair_gids (s : State) (r : Nat) (x : Pair) : (s.setPair r x).gids = s.gids := rfl
@[simp] theorem State.setPair_qps (s : State) (r : Nat) (x : Pair) : (s.setPair r x).qps = s.qps := rfl
@[simp] theorem State.setPair_mrs (s : State) (r : Nat) (x : Pair) : (s.setPair r x).mrs = s.mrs := rfl
@[simp] theorem State.setPair_qpx (s : State) (r : Nat) (x : Pair) : (s.setPair r x).qpx = s.qpx := rfl
@[simp] theorem State.setPair_pfc (s : State) (r : Nat) (x : Pair) : (s.setPair r x).pfc = s.pfc := rfl
@[simp] theorem State.setPair_ethWait (s : State) (r : Nat) (x : Pair) : (s.setPair r x).ethWait = s.ethWait := rfl
@[simp] theorem State.setPair_ethTx (s : State) (r : Nat) (x : Pair) : (s.setPair r x).ethTx = s.ethTx := rfl
@[simp] theorem State.setPair_ckp (s : State) (r : Nat) (x : Pair) : (s.setPair r x).ckp = s.ckp := rfl
@[simp] theorem State.setPair_flashTx (s : State) (r : Nat) (x : Pair) : (s.setPair r x).flashTx = s.flashTx := rfl
@[simp] theorem State.setPair_flash (s : State) (r : Nat) (x : Pair) : (s.setPair r x).flash = s.flash := rfl
@[simp] theorem State.setPair_eccHour (s : State) (r : Nat) (x : Pair) : (s.setPair r x).eccHour = s.eccHour := rfl
@[simp] theorem State.setPair_dbg (s : State) (r : Nat) (x : Pair) : (s.setPair r x).dbg = s.dbg := rfl
@[simp] theorem State.setPair_frozen (s : State) (r : Nat) (x : Pair) : (s.setPair r x).frozen = s.frozen := rfl
@[simp] theorem State.setPair_win (s : State) (r : Nat) (x : Pair) : (s.setPair r x).win = s.win := rfl
@[simp] theorem State.setPair_plan (s : State) (r : Nat) (x : Pair) : (s.setPair r x).plan = s.plan := rfl
@[simp] theorem State.setPair_sec (s : State) (r : Nat) (x : Pair) : (s.setPair r x).sec = s.sec := rfl
@[simp] theorem State.setPair_mgt (s : State) (r : Nat) (x : Pair) : (s.setPair r x).mgt = s.mgt := rfl
@[simp] theorem State.setPair_mgtTx (s : State) (r : Nat) (x : Pair) : (s.setPair r x).mgtTx = s.mgtTx := rfl
@[simp] theorem State.setPair_board (s : State) (r : Nat) (x : Pair) : (s.setPair r x).board = s.board := rfl

/-! ### setObj -/

@[simp] theorem State.setObj_pending (s : State) (o : Nat) (v : W32) : (s.setObj o v).pending = s.pending := rfl
@[simp] theorem State.setObj_free (s : State) (o : Nat) (v : W32) : (s.setObj o v).free = s.free := rfl
@[simp] theorem State.setObj_time (s : State) (o : Nat) (v : W32) : (s.setObj o v).time = s.time := rfl
@[simp] theorem State.setObj_regs (s : State) (o : Nat) (v : W32) : (s.setObj o v).regs = s.regs := rfl
@[simp] theorem State.setObj_views (s : State) (o : Nat) (v : W32) : (s.setObj o v).views = s.views := rfl
@[simp] theorem State.setObj_held (s : State) (o : Nat) (v : W32) : (s.setObj o v).held = s.held := rfl
@[simp] theorem State.setObj_capt (s : State) (o : Nat) (v : W32) : (s.setObj o v).capt = s.capt := rfl
@[simp] theorem State.setObj_mem (s : State) (o : Nat) (v : W32) : (s.setObj o v).mem = s.mem := rfl
@[simp] theorem State.setObj_poison (s : State) (o : Nat) (v : W32) : (s.setObj o v).poison = s.poison := rfl
@[simp] theorem State.setObj_msc (s : State) (o : Nat) (v : W32) : (s.setObj o v).msc = s.msc := rfl
@[simp] theorem State.setObj_ddrLost (s : State) (o : Nat) (v : W32) : (s.setObj o v).ddrLost = s.ddrLost := rfl
@[simp] theorem State.setObj_cow (s : State) (o : Nat) (v : W32) : (s.setObj o v).cow = s.cow := rfl
@[simp] theorem State.setObj_field (s : State) (o : Nat) (v : W32) : (s.setObj o v).field = s.field := rfl
@[simp] theorem State.setObj_acc (s : State) (o : Nat) (v : W32) : (s.setObj o v).acc = s.acc := rfl
@[simp] theorem State.setObj_basin (s : State) (o : Nat) (v : W32) : (s.setObj o v).basin = s.basin := rfl
@[simp] theorem State.setObj_accOpen (s : State) (o : Nat) (v : W32) : (s.setObj o v).accOpen = s.accOpen := rfl
@[simp] theorem State.setObj_basinOpen (s : State) (o : Nat) (v : W32) : (s.setObj o v).basinOpen = s.basinOpen := rfl
@[simp] theorem State.setObj_accHold (s : State) (o : Nat) (v : W32) : (s.setObj o v).accHold = s.accHold := rfl
@[simp] theorem State.setObj_basinHold (s : State) (o : Nat) (v : W32) : (s.setObj o v).basinHold = s.basinHold := rfl
@[simp] theorem State.setObj_slots (s : State) (o : Nat) (v : W32) : (s.setObj o v).slots = s.slots := rfl
@[simp] theorem State.setObj_cmpGen (s : State) (o : Nat) (v : W32) : (s.setObj o v).cmpGen = s.cmpGen := rfl
@[simp] theorem State.setObj_ctxs (s : State) (o : Nat) (v : W32) : (s.setObj o v).ctxs = s.ctxs := rfl
@[simp] theorem State.setObj_plains (s : State) (o : Nat) (v : W32) : (s.setObj o v).plains = s.plains := rfl
@[simp] theorem State.setObj_cntLive (s : State) (o : Nat) (v : W32) : (s.setObj o v).cntLive = s.cntLive := rfl
@[simp] theorem State.setObj_cntShadow (s : State) (o : Nat) (v : W32) : (s.setObj o v).cntShadow = s.cntShadow := rfl
@[simp] theorem State.setObj_cntRec (s : State) (o : Nat) (v : W32) : (s.setObj o v).cntRec = s.cntRec := rfl
@[simp] theorem State.setObj_logRec (s : State) (o : Nat) (v : W32) : (s.setObj o v).logRec = s.logRec := rfl
@[simp] theorem State.setObj_glb (s : State) (o : Nat) (v : W32) : (s.setObj o v).glb = s.glb := rfl
@[simp] theorem State.setObj_log (s : State) (o : Nat) (v : W32) : (s.setObj o v).log = s.log := rfl
@[simp] theorem State.setObj_logHead (s : State) (o : Nat) (v : W32) : (s.setObj o v).logHead = s.logHead := rfl
@[simp] theorem State.setObj_outst (s : State) (o : Nat) (v : W32) : (s.setObj o v).outst = s.outst := rfl
@[simp] theorem State.setObj_txWait (s : State) (o : Nat) (v : W32) : (s.setObj o v).txWait = s.txWait := rfl
@[simp] theorem State.setObj_links (s : State) (o : Nat) (v : W32) : (s.setObj o v).links = s.links := rfl
@[simp] theorem State.setObj_routes (s : State) (o : Nat) (v : W32) : (s.setObj o v).routes = s.routes := rfl
@[simp] theorem State.setObj_reqNext (s : State) (o : Nat) (v : W32) : (s.setObj o v).reqNext = s.reqNext := rfl
@[simp] theorem State.setObj_linkTx (s : State) (o : Nat) (v : W32) : (s.setObj o v).linkTx = s.linkTx := rfl
@[simp] theorem State.setObj_pci (s : State) (o : Nat) (v : W32) : (s.setObj o v).pci = s.pci := rfl
@[simp] theorem State.setObj_pairs (s : State) (o : Nat) (v : W32) : (s.setObj o v).pairs = s.pairs := rfl
@[simp] theorem State.setObj_hostTx (s : State) (o : Nat) (v : W32) : (s.setObj o v).hostTx = s.hostTx := rfl
@[simp] theorem State.setObj_acks (s : State) (o : Nat) (v : W32) : (s.setObj o v).acks = s.acks := rfl
@[simp] theorem State.setObj_ackNext (s : State) (o : Nat) (v : W32) : (s.setObj o v).ackNext = s.ackNext := rfl
@[simp] theorem State.setObj_gids (s : State) (o : Nat) (v : W32) : (s.setObj o v).gids = s.gids := rfl
@[simp] theorem State.setObj_qps (s : State) (o : Nat) (v : W32) : (s.setObj o v).qps = s.qps := rfl
@[simp] theorem State.setObj_mrs (s : State) (o : Nat) (v : W32) : (s.setObj o v).mrs = s.mrs := rfl
@[simp] theorem State.setObj_qpx (s : State) (o : Nat) (v : W32) : (s.setObj o v).qpx = s.qpx := rfl
@[simp] theorem State.setObj_pfc (s : State) (o : Nat) (v : W32) : (s.setObj o v).pfc = s.pfc := rfl
@[simp] theorem State.setObj_ethWait (s : State) (o : Nat) (v : W32) : (s.setObj o v).ethWait = s.ethWait := rfl
@[simp] theorem State.setObj_ethTx (s : State) (o : Nat) (v : W32) : (s.setObj o v).ethTx = s.ethTx := rfl
@[simp] theorem State.setObj_ckp (s : State) (o : Nat) (v : W32) : (s.setObj o v).ckp = s.ckp := rfl
@[simp] theorem State.setObj_flashTx (s : State) (o : Nat) (v : W32) : (s.setObj o v).flashTx = s.flashTx := rfl
@[simp] theorem State.setObj_flash (s : State) (o : Nat) (v : W32) : (s.setObj o v).flash = s.flash := rfl
@[simp] theorem State.setObj_eccHour (s : State) (o : Nat) (v : W32) : (s.setObj o v).eccHour = s.eccHour := rfl
@[simp] theorem State.setObj_dbg (s : State) (o : Nat) (v : W32) : (s.setObj o v).dbg = s.dbg := rfl
@[simp] theorem State.setObj_frozen (s : State) (o : Nat) (v : W32) : (s.setObj o v).frozen = s.frozen := rfl
@[simp] theorem State.setObj_win (s : State) (o : Nat) (v : W32) : (s.setObj o v).win = s.win := rfl
@[simp] theorem State.setObj_plan (s : State) (o : Nat) (v : W32) : (s.setObj o v).plan = s.plan := rfl
@[simp] theorem State.setObj_sec (s : State) (o : Nat) (v : W32) : (s.setObj o v).sec = s.sec := rfl
@[simp] theorem State.setObj_mgt (s : State) (o : Nat) (v : W32) : (s.setObj o v).mgt = s.mgt := rfl
@[simp] theorem State.setObj_mgtTx (s : State) (o : Nat) (v : W32) : (s.setObj o v).mgtTx = s.mgtTx := rfl
@[simp] theorem State.setObj_board (s : State) (o : Nat) (v : W32) : (s.setObj o v).board = s.board := rfl

/-! ### setLink -/

@[simp] theorem State.setLink_pending (s : State) (n : Nat) (l : Link) : (s.setLink n l).pending = s.pending := rfl
@[simp] theorem State.setLink_free (s : State) (n : Nat) (l : Link) : (s.setLink n l).free = s.free := rfl
@[simp] theorem State.setLink_time (s : State) (n : Nat) (l : Link) : (s.setLink n l).time = s.time := rfl
@[simp] theorem State.setLink_regs (s : State) (n : Nat) (l : Link) : (s.setLink n l).regs = s.regs := rfl
@[simp] theorem State.setLink_views (s : State) (n : Nat) (l : Link) : (s.setLink n l).views = s.views := rfl
@[simp] theorem State.setLink_held (s : State) (n : Nat) (l : Link) : (s.setLink n l).held = s.held := rfl
@[simp] theorem State.setLink_capt (s : State) (n : Nat) (l : Link) : (s.setLink n l).capt = s.capt := rfl
@[simp] theorem State.setLink_mem (s : State) (n : Nat) (l : Link) : (s.setLink n l).mem = s.mem := rfl
@[simp] theorem State.setLink_poison (s : State) (n : Nat) (l : Link) : (s.setLink n l).poison = s.poison := rfl
@[simp] theorem State.setLink_msc (s : State) (n : Nat) (l : Link) : (s.setLink n l).msc = s.msc := rfl
@[simp] theorem State.setLink_ddrLost (s : State) (n : Nat) (l : Link) : (s.setLink n l).ddrLost = s.ddrLost := rfl
@[simp] theorem State.setLink_cow (s : State) (n : Nat) (l : Link) : (s.setLink n l).cow = s.cow := rfl
@[simp] theorem State.setLink_field (s : State) (n : Nat) (l : Link) : (s.setLink n l).field = s.field := rfl
@[simp] theorem State.setLink_acc (s : State) (n : Nat) (l : Link) : (s.setLink n l).acc = s.acc := rfl
@[simp] theorem State.setLink_basin (s : State) (n : Nat) (l : Link) : (s.setLink n l).basin = s.basin := rfl
@[simp] theorem State.setLink_accOpen (s : State) (n : Nat) (l : Link) : (s.setLink n l).accOpen = s.accOpen := rfl
@[simp] theorem State.setLink_basinOpen (s : State) (n : Nat) (l : Link) : (s.setLink n l).basinOpen = s.basinOpen := rfl
@[simp] theorem State.setLink_accHold (s : State) (n : Nat) (l : Link) : (s.setLink n l).accHold = s.accHold := rfl
@[simp] theorem State.setLink_basinHold (s : State) (n : Nat) (l : Link) : (s.setLink n l).basinHold = s.basinHold := rfl
@[simp] theorem State.setLink_slots (s : State) (n : Nat) (l : Link) : (s.setLink n l).slots = s.slots := rfl
@[simp] theorem State.setLink_cmpGen (s : State) (n : Nat) (l : Link) : (s.setLink n l).cmpGen = s.cmpGen := rfl
@[simp] theorem State.setLink_objs (s : State) (n : Nat) (l : Link) : (s.setLink n l).objs = s.objs := rfl
@[simp] theorem State.setLink_ctxs (s : State) (n : Nat) (l : Link) : (s.setLink n l).ctxs = s.ctxs := rfl
@[simp] theorem State.setLink_plains (s : State) (n : Nat) (l : Link) : (s.setLink n l).plains = s.plains := rfl
@[simp] theorem State.setLink_cntLive (s : State) (n : Nat) (l : Link) : (s.setLink n l).cntLive = s.cntLive := rfl
@[simp] theorem State.setLink_cntShadow (s : State) (n : Nat) (l : Link) : (s.setLink n l).cntShadow = s.cntShadow := rfl
@[simp] theorem State.setLink_cntRec (s : State) (n : Nat) (l : Link) : (s.setLink n l).cntRec = s.cntRec := rfl
@[simp] theorem State.setLink_logRec (s : State) (n : Nat) (l : Link) : (s.setLink n l).logRec = s.logRec := rfl
@[simp] theorem State.setLink_glb (s : State) (n : Nat) (l : Link) : (s.setLink n l).glb = s.glb := rfl
@[simp] theorem State.setLink_log (s : State) (n : Nat) (l : Link) : (s.setLink n l).log = s.log := rfl
@[simp] theorem State.setLink_logHead (s : State) (n : Nat) (l : Link) : (s.setLink n l).logHead = s.logHead := rfl
@[simp] theorem State.setLink_outst (s : State) (n : Nat) (l : Link) : (s.setLink n l).outst = s.outst := rfl
@[simp] theorem State.setLink_txWait (s : State) (n : Nat) (l : Link) : (s.setLink n l).txWait = s.txWait := rfl
@[simp] theorem State.setLink_routes (s : State) (n : Nat) (l : Link) : (s.setLink n l).routes = s.routes := rfl
@[simp] theorem State.setLink_reqNext (s : State) (n : Nat) (l : Link) : (s.setLink n l).reqNext = s.reqNext := rfl
@[simp] theorem State.setLink_linkTx (s : State) (n : Nat) (l : Link) : (s.setLink n l).linkTx = s.linkTx := rfl
@[simp] theorem State.setLink_pci (s : State) (n : Nat) (l : Link) : (s.setLink n l).pci = s.pci := rfl
@[simp] theorem State.setLink_pairs (s : State) (n : Nat) (l : Link) : (s.setLink n l).pairs = s.pairs := rfl
@[simp] theorem State.setLink_hostTx (s : State) (n : Nat) (l : Link) : (s.setLink n l).hostTx = s.hostTx := rfl
@[simp] theorem State.setLink_acks (s : State) (n : Nat) (l : Link) : (s.setLink n l).acks = s.acks := rfl
@[simp] theorem State.setLink_ackNext (s : State) (n : Nat) (l : Link) : (s.setLink n l).ackNext = s.ackNext := rfl
@[simp] theorem State.setLink_gids (s : State) (n : Nat) (l : Link) : (s.setLink n l).gids = s.gids := rfl
@[simp] theorem State.setLink_qps (s : State) (n : Nat) (l : Link) : (s.setLink n l).qps = s.qps := rfl
@[simp] theorem State.setLink_mrs (s : State) (n : Nat) (l : Link) : (s.setLink n l).mrs = s.mrs := rfl
@[simp] theorem State.setLink_qpx (s : State) (n : Nat) (l : Link) : (s.setLink n l).qpx = s.qpx := rfl
@[simp] theorem State.setLink_pfc (s : State) (n : Nat) (l : Link) : (s.setLink n l).pfc = s.pfc := rfl
@[simp] theorem State.setLink_ethWait (s : State) (n : Nat) (l : Link) : (s.setLink n l).ethWait = s.ethWait := rfl
@[simp] theorem State.setLink_ethTx (s : State) (n : Nat) (l : Link) : (s.setLink n l).ethTx = s.ethTx := rfl
@[simp] theorem State.setLink_ckp (s : State) (n : Nat) (l : Link) : (s.setLink n l).ckp = s.ckp := rfl
@[simp] theorem State.setLink_flashTx (s : State) (n : Nat) (l : Link) : (s.setLink n l).flashTx = s.flashTx := rfl
@[simp] theorem State.setLink_flash (s : State) (n : Nat) (l : Link) : (s.setLink n l).flash = s.flash := rfl
@[simp] theorem State.setLink_eccHour (s : State) (n : Nat) (l : Link) : (s.setLink n l).eccHour = s.eccHour := rfl
@[simp] theorem State.setLink_dbg (s : State) (n : Nat) (l : Link) : (s.setLink n l).dbg = s.dbg := rfl
@[simp] theorem State.setLink_frozen (s : State) (n : Nat) (l : Link) : (s.setLink n l).frozen = s.frozen := rfl
@[simp] theorem State.setLink_win (s : State) (n : Nat) (l : Link) : (s.setLink n l).win = s.win := rfl
@[simp] theorem State.setLink_plan (s : State) (n : Nat) (l : Link) : (s.setLink n l).plan = s.plan := rfl
@[simp] theorem State.setLink_sec (s : State) (n : Nat) (l : Link) : (s.setLink n l).sec = s.sec := rfl
@[simp] theorem State.setLink_mgt (s : State) (n : Nat) (l : Link) : (s.setLink n l).mgt = s.mgt := rfl
@[simp] theorem State.setLink_mgtTx (s : State) (n : Nat) (l : Link) : (s.setLink n l).mgtTx = s.mgtTx := rfl
@[simp] theorem State.setLink_board (s : State) (n : Nat) (l : Link) : (s.setLink n l).board = s.board := rfl

/-! ### setCkp -/

@[simp] theorem State.setCkp_pending (s : State) (k : Ckp) : (s.setCkp k).pending = s.pending := rfl
@[simp] theorem State.setCkp_free (s : State) (k : Ckp) : (s.setCkp k).free = s.free := rfl
@[simp] theorem State.setCkp_time (s : State) (k : Ckp) : (s.setCkp k).time = s.time := rfl
@[simp] theorem State.setCkp_regs (s : State) (k : Ckp) : (s.setCkp k).regs = s.regs := rfl
@[simp] theorem State.setCkp_views (s : State) (k : Ckp) : (s.setCkp k).views = s.views := rfl
@[simp] theorem State.setCkp_held (s : State) (k : Ckp) : (s.setCkp k).held = s.held := rfl
@[simp] theorem State.setCkp_capt (s : State) (k : Ckp) : (s.setCkp k).capt = s.capt := rfl
@[simp] theorem State.setCkp_mem (s : State) (k : Ckp) : (s.setCkp k).mem = s.mem := rfl
@[simp] theorem State.setCkp_poison (s : State) (k : Ckp) : (s.setCkp k).poison = s.poison := rfl
@[simp] theorem State.setCkp_msc (s : State) (k : Ckp) : (s.setCkp k).msc = s.msc := rfl
@[simp] theorem State.setCkp_ddrLost (s : State) (k : Ckp) : (s.setCkp k).ddrLost = s.ddrLost := rfl
@[simp] theorem State.setCkp_cow (s : State) (k : Ckp) : (s.setCkp k).cow = s.cow := rfl
@[simp] theorem State.setCkp_field (s : State) (k : Ckp) : (s.setCkp k).field = s.field := rfl
@[simp] theorem State.setCkp_acc (s : State) (k : Ckp) : (s.setCkp k).acc = s.acc := rfl
@[simp] theorem State.setCkp_basin (s : State) (k : Ckp) : (s.setCkp k).basin = s.basin := rfl
@[simp] theorem State.setCkp_accOpen (s : State) (k : Ckp) : (s.setCkp k).accOpen = s.accOpen := rfl
@[simp] theorem State.setCkp_basinOpen (s : State) (k : Ckp) : (s.setCkp k).basinOpen = s.basinOpen := rfl
@[simp] theorem State.setCkp_accHold (s : State) (k : Ckp) : (s.setCkp k).accHold = s.accHold := rfl
@[simp] theorem State.setCkp_basinHold (s : State) (k : Ckp) : (s.setCkp k).basinHold = s.basinHold := rfl
@[simp] theorem State.setCkp_slots (s : State) (k : Ckp) : (s.setCkp k).slots = s.slots := rfl
@[simp] theorem State.setCkp_cmpGen (s : State) (k : Ckp) : (s.setCkp k).cmpGen = s.cmpGen := rfl
@[simp] theorem State.setCkp_objs (s : State) (k : Ckp) : (s.setCkp k).objs = s.objs := rfl
@[simp] theorem State.setCkp_ctxs (s : State) (k : Ckp) : (s.setCkp k).ctxs = s.ctxs := rfl
@[simp] theorem State.setCkp_plains (s : State) (k : Ckp) : (s.setCkp k).plains = s.plains := rfl
@[simp] theorem State.setCkp_cntLive (s : State) (k : Ckp) : (s.setCkp k).cntLive = s.cntLive := rfl
@[simp] theorem State.setCkp_cntShadow (s : State) (k : Ckp) : (s.setCkp k).cntShadow = s.cntShadow := rfl
@[simp] theorem State.setCkp_cntRec (s : State) (k : Ckp) : (s.setCkp k).cntRec = s.cntRec := rfl
@[simp] theorem State.setCkp_logRec (s : State) (k : Ckp) : (s.setCkp k).logRec = s.logRec := rfl
@[simp] theorem State.setCkp_glb (s : State) (k : Ckp) : (s.setCkp k).glb = s.glb := rfl
@[simp] theorem State.setCkp_log (s : State) (k : Ckp) : (s.setCkp k).log = s.log := rfl
@[simp] theorem State.setCkp_logHead (s : State) (k : Ckp) : (s.setCkp k).logHead = s.logHead := rfl
@[simp] theorem State.setCkp_outst (s : State) (k : Ckp) : (s.setCkp k).outst = s.outst := rfl
@[simp] theorem State.setCkp_txWait (s : State) (k : Ckp) : (s.setCkp k).txWait = s.txWait := rfl
@[simp] theorem State.setCkp_links (s : State) (k : Ckp) : (s.setCkp k).links = s.links := rfl
@[simp] theorem State.setCkp_routes (s : State) (k : Ckp) : (s.setCkp k).routes = s.routes := rfl
@[simp] theorem State.setCkp_reqNext (s : State) (k : Ckp) : (s.setCkp k).reqNext = s.reqNext := rfl
@[simp] theorem State.setCkp_linkTx (s : State) (k : Ckp) : (s.setCkp k).linkTx = s.linkTx := rfl
@[simp] theorem State.setCkp_pci (s : State) (k : Ckp) : (s.setCkp k).pci = s.pci := rfl
@[simp] theorem State.setCkp_pairs (s : State) (k : Ckp) : (s.setCkp k).pairs = s.pairs := rfl
@[simp] theorem State.setCkp_hostTx (s : State) (k : Ckp) : (s.setCkp k).hostTx = s.hostTx := rfl
@[simp] theorem State.setCkp_acks (s : State) (k : Ckp) : (s.setCkp k).acks = s.acks := rfl
@[simp] theorem State.setCkp_ackNext (s : State) (k : Ckp) : (s.setCkp k).ackNext = s.ackNext := rfl
@[simp] theorem State.setCkp_gids (s : State) (k : Ckp) : (s.setCkp k).gids = s.gids := rfl
@[simp] theorem State.setCkp_qps (s : State) (k : Ckp) : (s.setCkp k).qps = s.qps := rfl
@[simp] theorem State.setCkp_mrs (s : State) (k : Ckp) : (s.setCkp k).mrs = s.mrs := rfl
@[simp] theorem State.setCkp_qpx (s : State) (k : Ckp) : (s.setCkp k).qpx = s.qpx := rfl
@[simp] theorem State.setCkp_pfc (s : State) (k : Ckp) : (s.setCkp k).pfc = s.pfc := rfl
@[simp] theorem State.setCkp_ethWait (s : State) (k : Ckp) : (s.setCkp k).ethWait = s.ethWait := rfl
@[simp] theorem State.setCkp_ethTx (s : State) (k : Ckp) : (s.setCkp k).ethTx = s.ethTx := rfl
@[simp] theorem State.setCkp_flashTx (s : State) (k : Ckp) : (s.setCkp k).flashTx = s.flashTx := rfl
@[simp] theorem State.setCkp_flash (s : State) (k : Ckp) : (s.setCkp k).flash = s.flash := rfl
@[simp] theorem State.setCkp_eccHour (s : State) (k : Ckp) : (s.setCkp k).eccHour = s.eccHour := rfl
@[simp] theorem State.setCkp_dbg (s : State) (k : Ckp) : (s.setCkp k).dbg = s.dbg := rfl
@[simp] theorem State.setCkp_frozen (s : State) (k : Ckp) : (s.setCkp k).frozen = s.frozen := rfl
@[simp] theorem State.setCkp_win (s : State) (k : Ckp) : (s.setCkp k).win = s.win := rfl
@[simp] theorem State.setCkp_plan (s : State) (k : Ckp) : (s.setCkp k).plan = s.plan := rfl
@[simp] theorem State.setCkp_sec (s : State) (k : Ckp) : (s.setCkp k).sec = s.sec := rfl
@[simp] theorem State.setCkp_mgt (s : State) (k : Ckp) : (s.setCkp k).mgt = s.mgt := rfl
@[simp] theorem State.setCkp_mgtTx (s : State) (k : Ckp) : (s.setCkp k).mgtTx = s.mgtTx := rfl
@[simp] theorem State.setCkp_board (s : State) (k : Ckp) : (s.setCkp k).board = s.board := rfl

/-! ### setBits -/

@[simp] theorem State.setBits_pending (s : State) (o : Nat) (k v : W32) : (s.setBits o k v).pending = s.pending := rfl
@[simp] theorem State.setBits_free (s : State) (o : Nat) (k v : W32) : (s.setBits o k v).free = s.free := rfl
@[simp] theorem State.setBits_time (s : State) (o : Nat) (k v : W32) : (s.setBits o k v).time = s.time := rfl
@[simp] theorem State.setBits_views (s : State) (o : Nat) (k v : W32) : (s.setBits o k v).views = s.views := rfl
@[simp] theorem State.setBits_held (s : State) (o : Nat) (k v : W32) : (s.setBits o k v).held = s.held := rfl
@[simp] theorem State.setBits_capt (s : State) (o : Nat) (k v : W32) : (s.setBits o k v).capt = s.capt := rfl
@[simp] theorem State.setBits_mem (s : State) (o : Nat) (k v : W32) : (s.setBits o k v).mem = s.mem := rfl
@[simp] theorem State.setBits_poison (s : State) (o : Nat) (k v : W32) : (s.setBits o k v).poison = s.poison := rfl
@[simp] theorem State.setBits_msc (s : State) (o : Nat) (k v : W32) : (s.setBits o k v).msc = s.msc := rfl
@[simp] theorem State.setBits_ddrLost (s : State) (o : Nat) (k v : W32) : (s.setBits o k v).ddrLost = s.ddrLost := rfl
@[simp] theorem State.setBits_cow (s : State) (o : Nat) (k v : W32) : (s.setBits o k v).cow = s.cow := rfl
@[simp] theorem State.setBits_field (s : State) (o : Nat) (k v : W32) : (s.setBits o k v).field = s.field := rfl
@[simp] theorem State.setBits_acc (s : State) (o : Nat) (k v : W32) : (s.setBits o k v).acc = s.acc := rfl
@[simp] theorem State.setBits_basin (s : State) (o : Nat) (k v : W32) : (s.setBits o k v).basin = s.basin := rfl
@[simp] theorem State.setBits_accOpen (s : State) (o : Nat) (k v : W32) : (s.setBits o k v).accOpen = s.accOpen := rfl
@[simp] theorem State.setBits_basinOpen (s : State) (o : Nat) (k v : W32) : (s.setBits o k v).basinOpen = s.basinOpen := rfl
@[simp] theorem State.setBits_accHold (s : State) (o : Nat) (k v : W32) : (s.setBits o k v).accHold = s.accHold := rfl
@[simp] theorem State.setBits_basinHold (s : State) (o : Nat) (k v : W32) : (s.setBits o k v).basinHold = s.basinHold := rfl
@[simp] theorem State.setBits_slots (s : State) (o : Nat) (k v : W32) : (s.setBits o k v).slots = s.slots := rfl
@[simp] theorem State.setBits_cmpGen (s : State) (o : Nat) (k v : W32) : (s.setBits o k v).cmpGen = s.cmpGen := rfl
@[simp] theorem State.setBits_objs (s : State) (o : Nat) (k v : W32) : (s.setBits o k v).objs = s.objs := rfl
@[simp] theorem State.setBits_ctxs (s : State) (o : Nat) (k v : W32) : (s.setBits o k v).ctxs = s.ctxs := rfl
@[simp] theorem State.setBits_plains (s : State) (o : Nat) (k v : W32) : (s.setBits o k v).plains = s.plains := rfl
@[simp] theorem State.setBits_cntLive (s : State) (o : Nat) (k v : W32) : (s.setBits o k v).cntLive = s.cntLive := rfl
@[simp] theorem State.setBits_cntShadow (s : State) (o : Nat) (k v : W32) : (s.setBits o k v).cntShadow = s.cntShadow := rfl
@[simp] theorem State.setBits_cntRec (s : State) (o : Nat) (k v : W32) : (s.setBits o k v).cntRec = s.cntRec := rfl
@[simp] theorem State.setBits_logRec (s : State) (o : Nat) (k v : W32) : (s.setBits o k v).logRec = s.logRec := rfl
@[simp] theorem State.setBits_glb (s : State) (o : Nat) (k v : W32) : (s.setBits o k v).glb = s.glb := rfl
@[simp] theorem State.setBits_log (s : State) (o : Nat) (k v : W32) : (s.setBits o k v).log = s.log := rfl
@[simp] theorem State.setBits_logHead (s : State) (o : Nat) (k v : W32) : (s.setBits o k v).logHead = s.logHead := rfl
@[simp] theorem State.setBits_outst (s : State) (o : Nat) (k v : W32) : (s.setBits o k v).outst = s.outst := rfl
@[simp] theorem State.setBits_txWait (s : State) (o : Nat) (k v : W32) : (s.setBits o k v).txWait = s.txWait := rfl
@[simp] theorem State.setBits_links (s : State) (o : Nat) (k v : W32) : (s.setBits o k v).links = s.links := rfl
@[simp] theorem State.setBits_routes (s : State) (o : Nat) (k v : W32) : (s.setBits o k v).routes = s.routes := rfl
@[simp] theorem State.setBits_reqNext (s : State) (o : Nat) (k v : W32) : (s.setBits o k v).reqNext = s.reqNext := rfl
@[simp] theorem State.setBits_linkTx (s : State) (o : Nat) (k v : W32) : (s.setBits o k v).linkTx = s.linkTx := rfl
@[simp] theorem State.setBits_pci (s : State) (o : Nat) (k v : W32) : (s.setBits o k v).pci = s.pci := rfl
@[simp] theorem State.setBits_pairs (s : State) (o : Nat) (k v : W32) : (s.setBits o k v).pairs = s.pairs := rfl
@[simp] theorem State.setBits_hostTx (s : State) (o : Nat) (k v : W32) : (s.setBits o k v).hostTx = s.hostTx := rfl
@[simp] theorem State.setBits_acks (s : State) (o : Nat) (k v : W32) : (s.setBits o k v).acks = s.acks := rfl
@[simp] theorem State.setBits_ackNext (s : State) (o : Nat) (k v : W32) : (s.setBits o k v).ackNext = s.ackNext := rfl
@[simp] theorem State.setBits_gids (s : State) (o : Nat) (k v : W32) : (s.setBits o k v).gids = s.gids := rfl
@[simp] theorem State.setBits_qps (s : State) (o : Nat) (k v : W32) : (s.setBits o k v).qps = s.qps := rfl
@[simp] theorem State.setBits_mrs (s : State) (o : Nat) (k v : W32) : (s.setBits o k v).mrs = s.mrs := rfl
@[simp] theorem State.setBits_qpx (s : State) (o : Nat) (k v : W32) : (s.setBits o k v).qpx = s.qpx := rfl
@[simp] theorem State.setBits_pfc (s : State) (o : Nat) (k v : W32) : (s.setBits o k v).pfc = s.pfc := rfl
@[simp] theorem State.setBits_ethWait (s : State) (o : Nat) (k v : W32) : (s.setBits o k v).ethWait = s.ethWait := rfl
@[simp] theorem State.setBits_ethTx (s : State) (o : Nat) (k v : W32) : (s.setBits o k v).ethTx = s.ethTx := rfl
@[simp] theorem State.setBits_ckp (s : State) (o : Nat) (k v : W32) : (s.setBits o k v).ckp = s.ckp := rfl
@[simp] theorem State.setBits_flashTx (s : State) (o : Nat) (k v : W32) : (s.setBits o k v).flashTx = s.flashTx := rfl
@[simp] theorem State.setBits_flash (s : State) (o : Nat) (k v : W32) : (s.setBits o k v).flash = s.flash := rfl
@[simp] theorem State.setBits_eccHour (s : State) (o : Nat) (k v : W32) : (s.setBits o k v).eccHour = s.eccHour := rfl
@[simp] theorem State.setBits_dbg (s : State) (o : Nat) (k v : W32) : (s.setBits o k v).dbg = s.dbg := rfl
@[simp] theorem State.setBits_frozen (s : State) (o : Nat) (k v : W32) : (s.setBits o k v).frozen = s.frozen := rfl
@[simp] theorem State.setBits_win (s : State) (o : Nat) (k v : W32) : (s.setBits o k v).win = s.win := rfl
@[simp] theorem State.setBits_plan (s : State) (o : Nat) (k v : W32) : (s.setBits o k v).plan = s.plan := rfl
@[simp] theorem State.setBits_sec (s : State) (o : Nat) (k v : W32) : (s.setBits o k v).sec = s.sec := rfl
@[simp] theorem State.setBits_mgt (s : State) (o : Nat) (k v : W32) : (s.setBits o k v).mgt = s.mgt := rfl
@[simp] theorem State.setBits_mgtTx (s : State) (o : Nat) (k v : W32) : (s.setBits o k v).mgtTx = s.mgtTx := rfl
@[simp] theorem State.setBits_board (s : State) (o : Nat) (k v : W32) : (s.setBits o k v).board = s.board := rfl

/-! ### setCfg -/

@[simp] theorem State.setCfg_pending (s : State) (o : Nat) (v : W32) : (s.setCfg o v).pending = s.pending := rfl
@[simp] theorem State.setCfg_free (s : State) (o : Nat) (v : W32) : (s.setCfg o v).free = s.free := rfl
@[simp] theorem State.setCfg_time (s : State) (o : Nat) (v : W32) : (s.setCfg o v).time = s.time := rfl
@[simp] theorem State.setCfg_regs (s : State) (o : Nat) (v : W32) : (s.setCfg o v).regs = s.regs := rfl
@[simp] theorem State.setCfg_views (s : State) (o : Nat) (v : W32) : (s.setCfg o v).views = s.views := rfl
@[simp] theorem State.setCfg_held (s : State) (o : Nat) (v : W32) : (s.setCfg o v).held = s.held := rfl
@[simp] theorem State.setCfg_capt (s : State) (o : Nat) (v : W32) : (s.setCfg o v).capt = s.capt := rfl
@[simp] theorem State.setCfg_mem (s : State) (o : Nat) (v : W32) : (s.setCfg o v).mem = s.mem := rfl
@[simp] theorem State.setCfg_poison (s : State) (o : Nat) (v : W32) : (s.setCfg o v).poison = s.poison := rfl
@[simp] theorem State.setCfg_msc (s : State) (o : Nat) (v : W32) : (s.setCfg o v).msc = s.msc := rfl
@[simp] theorem State.setCfg_ddrLost (s : State) (o : Nat) (v : W32) : (s.setCfg o v).ddrLost = s.ddrLost := rfl
@[simp] theorem State.setCfg_cow (s : State) (o : Nat) (v : W32) : (s.setCfg o v).cow = s.cow := rfl
@[simp] theorem State.setCfg_field (s : State) (o : Nat) (v : W32) : (s.setCfg o v).field = s.field := rfl
@[simp] theorem State.setCfg_acc (s : State) (o : Nat) (v : W32) : (s.setCfg o v).acc = s.acc := rfl
@[simp] theorem State.setCfg_basin (s : State) (o : Nat) (v : W32) : (s.setCfg o v).basin = s.basin := rfl
@[simp] theorem State.setCfg_accOpen (s : State) (o : Nat) (v : W32) : (s.setCfg o v).accOpen = s.accOpen := rfl
@[simp] theorem State.setCfg_basinOpen (s : State) (o : Nat) (v : W32) : (s.setCfg o v).basinOpen = s.basinOpen := rfl
@[simp] theorem State.setCfg_accHold (s : State) (o : Nat) (v : W32) : (s.setCfg o v).accHold = s.accHold := rfl
@[simp] theorem State.setCfg_basinHold (s : State) (o : Nat) (v : W32) : (s.setCfg o v).basinHold = s.basinHold := rfl
@[simp] theorem State.setCfg_slots (s : State) (o : Nat) (v : W32) : (s.setCfg o v).slots = s.slots := rfl
@[simp] theorem State.setCfg_cmpGen (s : State) (o : Nat) (v : W32) : (s.setCfg o v).cmpGen = s.cmpGen := rfl
@[simp] theorem State.setCfg_objs (s : State) (o : Nat) (v : W32) : (s.setCfg o v).objs = s.objs := rfl
@[simp] theorem State.setCfg_ctxs (s : State) (o : Nat) (v : W32) : (s.setCfg o v).ctxs = s.ctxs := rfl
@[simp] theorem State.setCfg_plains (s : State) (o : Nat) (v : W32) : (s.setCfg o v).plains = s.plains := rfl
@[simp] theorem State.setCfg_cntLive (s : State) (o : Nat) (v : W32) : (s.setCfg o v).cntLive = s.cntLive := rfl
@[simp] theorem State.setCfg_cntShadow (s : State) (o : Nat) (v : W32) : (s.setCfg o v).cntShadow = s.cntShadow := rfl
@[simp] theorem State.setCfg_cntRec (s : State) (o : Nat) (v : W32) : (s.setCfg o v).cntRec = s.cntRec := rfl
@[simp] theorem State.setCfg_logRec (s : State) (o : Nat) (v : W32) : (s.setCfg o v).logRec = s.logRec := rfl
@[simp] theorem State.setCfg_glb (s : State) (o : Nat) (v : W32) : (s.setCfg o v).glb = s.glb := rfl
@[simp] theorem State.setCfg_log (s : State) (o : Nat) (v : W32) : (s.setCfg o v).log = s.log := rfl
@[simp] theorem State.setCfg_logHead (s : State) (o : Nat) (v : W32) : (s.setCfg o v).logHead = s.logHead := rfl
@[simp] theorem State.setCfg_outst (s : State) (o : Nat) (v : W32) : (s.setCfg o v).outst = s.outst := rfl
@[simp] theorem State.setCfg_txWait (s : State) (o : Nat) (v : W32) : (s.setCfg o v).txWait = s.txWait := rfl
@[simp] theorem State.setCfg_links (s : State) (o : Nat) (v : W32) : (s.setCfg o v).links = s.links := rfl
@[simp] theorem State.setCfg_routes (s : State) (o : Nat) (v : W32) : (s.setCfg o v).routes = s.routes := rfl
@[simp] theorem State.setCfg_reqNext (s : State) (o : Nat) (v : W32) : (s.setCfg o v).reqNext = s.reqNext := rfl
@[simp] theorem State.setCfg_linkTx (s : State) (o : Nat) (v : W32) : (s.setCfg o v).linkTx = s.linkTx := rfl
@[simp] theorem State.setCfg_pairs (s : State) (o : Nat) (v : W32) : (s.setCfg o v).pairs = s.pairs := rfl
@[simp] theorem State.setCfg_hostTx (s : State) (o : Nat) (v : W32) : (s.setCfg o v).hostTx = s.hostTx := rfl
@[simp] theorem State.setCfg_acks (s : State) (o : Nat) (v : W32) : (s.setCfg o v).acks = s.acks := rfl
@[simp] theorem State.setCfg_ackNext (s : State) (o : Nat) (v : W32) : (s.setCfg o v).ackNext = s.ackNext := rfl
@[simp] theorem State.setCfg_gids (s : State) (o : Nat) (v : W32) : (s.setCfg o v).gids = s.gids := rfl
@[simp] theorem State.setCfg_qps (s : State) (o : Nat) (v : W32) : (s.setCfg o v).qps = s.qps := rfl
@[simp] theorem State.setCfg_mrs (s : State) (o : Nat) (v : W32) : (s.setCfg o v).mrs = s.mrs := rfl
@[simp] theorem State.setCfg_qpx (s : State) (o : Nat) (v : W32) : (s.setCfg o v).qpx = s.qpx := rfl
@[simp] theorem State.setCfg_pfc (s : State) (o : Nat) (v : W32) : (s.setCfg o v).pfc = s.pfc := rfl
@[simp] theorem State.setCfg_ethWait (s : State) (o : Nat) (v : W32) : (s.setCfg o v).ethWait = s.ethWait := rfl
@[simp] theorem State.setCfg_ethTx (s : State) (o : Nat) (v : W32) : (s.setCfg o v).ethTx = s.ethTx := rfl
@[simp] theorem State.setCfg_ckp (s : State) (o : Nat) (v : W32) : (s.setCfg o v).ckp = s.ckp := rfl
@[simp] theorem State.setCfg_flashTx (s : State) (o : Nat) (v : W32) : (s.setCfg o v).flashTx = s.flashTx := rfl
@[simp] theorem State.setCfg_flash (s : State) (o : Nat) (v : W32) : (s.setCfg o v).flash = s.flash := rfl
@[simp] theorem State.setCfg_eccHour (s : State) (o : Nat) (v : W32) : (s.setCfg o v).eccHour = s.eccHour := rfl
@[simp] theorem State.setCfg_dbg (s : State) (o : Nat) (v : W32) : (s.setCfg o v).dbg = s.dbg := rfl
@[simp] theorem State.setCfg_frozen (s : State) (o : Nat) (v : W32) : (s.setCfg o v).frozen = s.frozen := rfl
@[simp] theorem State.setCfg_win (s : State) (o : Nat) (v : W32) : (s.setCfg o v).win = s.win := rfl
@[simp] theorem State.setCfg_plan (s : State) (o : Nat) (v : W32) : (s.setCfg o v).plan = s.plan := rfl
@[simp] theorem State.setCfg_sec (s : State) (o : Nat) (v : W32) : (s.setCfg o v).sec = s.sec := rfl
@[simp] theorem State.setCfg_mgt (s : State) (o : Nat) (v : W32) : (s.setCfg o v).mgt = s.mgt := rfl
@[simp] theorem State.setCfg_mgtTx (s : State) (o : Nat) (v : W32) : (s.setCfg o v).mgtTx = s.mgtTx := rfl
@[simp] theorem State.setCfg_board (s : State) (o : Nat) (v : W32) : (s.setCfg o v).board = s.board := rfl

end Sys2Proof.Machine
end

