-- ==== Sys2Proof/Laws/Store.lean ====
section
/-! SUPPORT. The laws of sparse stores: a read after a write, and the canonical form that every write keeps. -/

namespace Sys2Proof.Machine

section
variable {α : Type} {d : Nat → α}

theorem storeGet_dropWhile_le (r : Store α) (k q : Nat) (h : k < q) :
    storeGet d (r.dropWhile fun e => e.1 ≤ k) q = storeGet d r q := by
  induction r with
  | nil => rfl
  | cons e r ih =>
    rw [List.dropWhile_cons]
    by_cases hk : e.1 ≤ k
    · have h1 : ¬ q = e.1 := by omega
      have h2 : ¬ q < e.1 := by omega
      simp [hk, ih, storeGet, h1, h2]
    · simp [hk]

theorem storeGet_dropWhile_ge (r : Store α) (k q : Nat) (h : q ≤ k) :
    storeGet d (r.dropWhile fun e => e.1 ≤ k) q = d q := by
  induction r with
  | nil => rfl
  | cons e r ih =>
    rw [List.dropWhile_cons]
    by_cases hk : e.1 ≤ k
    · simp [hk, ih]
    · have h1 : ¬ q = e.1 := by omega
      have h2 : q < e.1 := by omega
      simp [hk, storeGet, h1, h2]

/-- A read after a write, in every store. -/
theorem storeGet_storePut [DecidableEq α] (st : Store α) (k q : Nat) (v : α) :
    storeGet d (storePut d st k v) q = if q = k then v else storeGet d st q := by
  induction st with
  | nil =>
    simp only [storePut]
    by_cases hv : v = d k
    · by_cases hq : q = k <;> simp [hv, hq, storeGet]
    · by_cases hq : q = k <;> simp [hv, hq, storeGet]
  | cons e r ih =>
    obtain ⟨j, w⟩ := e
    simp only [storePut]
    by_cases h1 : k < j
    · by_cases hv : v = d k
      · by_cases hq : q = k
        · have : ¬ k = j := by omega
          simp [h1, hv, hq, storeGet, this]
        · simp [h1, hv, hq]
      · by_cases hq : q = k
        · simp [h1, hv, hq, storeGet]
        · simp only [h1, hv, hq, storeGet, if_true, if_false]
          by_cases hlt : q < k
          · have a : ¬ q = j := by omega
            have b : q < j := by omega
            simp [hlt, a, b]
          · simp [hlt]
    · by_cases h2 : k = j
      · subst h2
        by_cases hv : v = d k
        · simp only [Nat.lt_irrefl, hv, if_true, if_false]
          by_cases hlt : k < q
          · have a : ¬ q = k := by omega
            have b : ¬ q < k := by omega
            rw [storeGet_dropWhile_le r k q hlt]
            simp [a, b, storeGet]
          · rw [storeGet_dropWhile_ge r k q (by omega)]
            by_cases hq : q = k
            · simp [hq]
            · have b : q < k := by omega
              simp [hq, storeGet, b]
        · simp only [Nat.lt_irrefl, hv, if_true, if_false, storeGet]
          by_cases hq : q = k <;> simp [hq]
      · simp only [h1, h2, if_false, storeGet, ih]
        by_cases hq : q = j
        · have : ¬ j = k := by omega
          simp [hq, this]
        · by_cases hlt : q < j
          · have : ¬ q = k := by omega
            simp [hq, hlt, this]
          · simp [hq, hlt]

@[simp] theorem storeGet_storePut_same [DecidableEq α] (st : Store α) (k : Nat) (v : α) :
    storeGet d (storePut d st k v) k = v := by simp [storeGet_storePut]

theorem storeGet_storePut_ne [DecidableEq α] (st : Store α) {k q : Nat} (v : α) (h : q ≠ k) :
    storeGet d (storePut d st k v) q = storeGet d st q := by simp [storeGet_storePut, h]

theorem storePut_mem [DecidableEq α] {st : Store α} {k : Nat} {v : α} {e : Nat × α}
    (h : e ∈ storePut d st k v) : e = (k, v) ∧ v ≠ d k ∨ e ∈ st := by
  induction st with
  | nil =>
    simp only [storePut] at h
    split at h <;> simp_all
  | cons x r ih =>
    simp only [storePut] at h
    split at h
    · split at h
      · exact .inr h
      · rcases List.mem_cons.mp h with rfl | h
        · exact .inl ⟨rfl, by assumption⟩
        · exact .inr h
    · split at h
      · split at h
        · exact .inr (List.mem_cons_of_mem _ (List.dropWhile_sublist _ |>.mem h))
        · rcases List.mem_cons.mp h with rfl | h
          · exact .inl ⟨rfl, by assumption⟩
          · exact .inr (List.mem_cons_of_mem _ h)
      · rcases List.mem_cons.mp h with rfl | h
        · exact .inr (List.mem_cons_self ..)
        · rcases ih h with h | h
          · exact .inl h
          · exact .inr (List.mem_cons_of_mem _ h)

/-- A write keeps the canonical form. -/
theorem storePut_wf [DecidableEq α] {st : Store α} (k : Nat) (v : α) (h : storeWf d st) :
    storeWf d (storePut d st k v) := by
  refine ⟨?_, fun e he => ?_⟩
  · induction st with
    | nil => simp only [storePut]; split <;> simp
    | cons x r ih =>
      obtain ⟨hp, hd⟩ := h
      rw [List.pairwise_cons] at hp
      simp only [storePut]
      split
      · split
        · exact List.pairwise_cons.mpr hp
        · refine List.pairwise_cons.mpr ⟨fun e he => ?_, List.pairwise_cons.mpr hp⟩
          rcases List.mem_cons.mp he with rfl | he
          · assumption
          · exact Nat.lt_trans (by assumption) (hp.1 e he)
      · split
        · rename_i hk
          split
          · exact hp.2.sublist (List.dropWhile_sublist _)
          · exact List.pairwise_cons.mpr ⟨fun e he => by simpa [hk] using hp.1 e he, hp.2⟩
        · refine List.pairwise_cons.mpr ⟨fun e he => ?_, ih ⟨hp.2, fun e he => hd e (List.mem_cons_of_mem _ he)⟩⟩
          rcases storePut_mem he with ⟨rfl, -⟩ | he
          · simp only; omega
          · exact hp.1 e he
  · rcases storePut_mem he with ⟨rfl, hv⟩ | he
    · exact hv
    · exact h.2 e he

/-- Leaving entries out keeps the canonical form. -/
theorem storeWf_filter {st : Store α} (f : Nat × α → Bool) (h : storeWf d st) : storeWf d (st.filter f) :=
  ⟨h.1.sublist List.filter_sublist, fun e he => h.2 e (List.mem_filter.mp he).1⟩

theorem storeClear_wf {st : Store α} (lo hi : Nat) (h : storeWf d st) : storeWf d (storeClear st lo hi) :=
  storeWf_filter _ h

theorem storePutRun_wf [DecidableEq α] (vs : List α) {st : Store α} (k : Nat) (h : storeWf d st) :
    storeWf d (storePutRun d st k vs) := by
  induction vs generalizing st k with
  | nil => exact h
  | cons v vs ih => exact ih (k + 1) (storePut_wf k v h)

/-- A read after a run of writes. -/
theorem storeGet_storePutRun [DecidableEq α] (vs : List α) (st : Store α) (k q : Nat) :
    storeGet d (storePutRun d st k vs) q =
      if k ≤ q ∧ q < k + vs.length then vs.getD (q - k) (d q) else storeGet d st q := by
  induction vs generalizing st k with
  | nil =>
    have : ¬ (k ≤ q ∧ q < k + ([] : List α).length) := by simp
    rw [if_neg this, storePutRun]
  | cons v vs ih =>
    simp only [storePutRun, ih, storeGet_storePut, List.length_cons]
    by_cases h : q = k
    · subst h
      have a : ¬ (q + 1 ≤ q ∧ q < q + 1 + vs.length) := by omega
      have b : q ≤ q ∧ q < q + (vs.length + 1) := by omega
      rw [if_neg a, if_pos rfl, if_pos b]
      simp
    · by_cases h1 : k + 1 ≤ q ∧ q < k + 1 + vs.length
      · have b : k ≤ q ∧ q < k + (vs.length + 1) := by omega
        have c : q - k = (q - (k + 1)) + 1 := by omega
        simp [h1, b, c]
      · have b : ¬ (k ≤ q ∧ q < k + (vs.length + 1)) := by omega
        rw [if_neg h1, if_neg h, if_neg b]

/-- In a canonical store an absent key reads as the default. -/
theorem storeGet_of_forall_ne {st : Store α} {k : Nat} (h : ∀ e ∈ st, e.1 ≠ k) : storeGet d st k = d k := by
  induction st with
  | nil => rfl
  | cons e r ih =>
    have h1 := h e (List.mem_cons_self ..)
    simp only [storeGet]
    have : ¬ k = e.1 := fun x => h1 x.symm
    rw [if_neg this, ih fun e he => h e (List.mem_cons_of_mem _ he)]
    split <;> rfl

/-- Two canonical stores that read the same are the same. -/
theorem storeWf_ext {a b : Store α} (ha : storeWf d a) (hb : storeWf d b)
    (h : ∀ k, storeGet d a k = storeGet d b k) : a = b := by
  induction a generalizing b with
  | nil =>
    cases b with
    | nil => rfl
    | cons y q =>
      have := h y.1
      simp only [storeGet, if_true] at this
      exact absurd this.symm (hb.2 y (List.mem_cons_self ..))
  | cons x r ih =>
    obtain ⟨hp, hd⟩ := ha
    rw [List.pairwise_cons] at hp
    cases b with
    | nil =>
      have := h x.1
      simp only [storeGet, if_true] at this
      exact absurd this (hd x (List.mem_cons_self ..))
    | cons y q =>
      obtain ⟨hp', hd'⟩ := hb
      rw [List.pairwise_cons] at hp'
      have hx := h x.1
      have hy := h y.1
      simp only [storeGet, if_true] at hx hy
      have nx := hd x (List.mem_cons_self ..)
      have ny := hd' y (List.mem_cons_self ..)
      have e1 : x.1 = y.1 := by
        rcases Nat.lt_trichotomy x.1 y.1 with l | l | l
        · have : ¬ x.1 = y.1 := by omega
          rw [if_neg this, if_pos l] at hx
          exact absurd hx nx
        · exact l
        · have : ¬ y.1 = x.1 := by omega
          rw [if_neg this, if_pos l] at hy
          exact absurd hy.symm ny
      have e2 : x.2 = y.2 := by rw [if_pos e1] at hx; exact hx
      have exy : x = y := Prod.ext e1 e2
      subst exy
      congr 1
      refine ih ⟨hp.2, fun e he => hd e (List.mem_cons_of_mem _ he)⟩
        ⟨hp'.2, fun e he => hd' e (List.mem_cons_of_mem _ he)⟩ fun k => ?_
      have hk := h k
      simp only [storeGet] at hk
      by_cases h1 : k = x.1
      · rw [storeGet_of_forall_ne fun e he => by have := hp.1 e he; omega,
          storeGet_of_forall_ne fun e he => by have := hp'.1 e he; omega]
      · by_cases h2 : k < x.1
        · rw [storeGet_of_forall_ne fun e he => by have := hp.1 e he; omega,
            storeGet_of_forall_ne fun e he => by have := hp'.1 e he; omega]
        · simpa [h1, h2] using hk

end

end Sys2Proof.Machine
end

