-- ==== Sys2Proof/Laws/Ops.lean ====
section
/-! SUPPORT. What the shared operations can do: what they leave alone, and that memory and the event log keep their forms. -/

namespace Sys2Proof.Machine

/-! ### What is read after an update -/

theorem State.reg_setReg (s : State) (o q : Nat) (v : W32) : (s.setReg o v).reg q = if q = o then v else s.reg q := storeGet_storePut ..
theorem State.ctx_setCtx (s : State) (m q : Nat) (c : Ctx) : (s.setCtx m c).ctx q = if q = m then c else s.ctx q := storeGet_storePut ..
theorem State.plain_setPlain (s : State) (p q : Nat) (x : Plain) : (s.setPlain p x).plain q = if q = p then x else s.plain q := storeGet_storePut ..
theorem State.pair_setPair (s : State) (r q : Nat) (x : Pair) : (s.setPair r x).pair q = if q = r then x else s.pair q := storeGet_storePut ..
theorem State.obj_setObj (s : State) (o q : Nat) (v : W32) : (s.setObj o v).obj q = if q = o then v else s.obj q := storeGet_storePut ..
theorem State.link_setLink (s : State) (n q : Nat) (l : Link) : (s.setLink n l).link q = if q = n then l else s.link q := storeGet_storePut ..
theorem State.reg_setBits (s : State) (o q : Nat) (k v : W32) :
    (s.setBits o k v).reg q = if q = o then (s.reg o &&& ~~~k) ||| (v &&& k) else s.reg q := State.reg_setReg ..
theorem State.obj_addObj (s : State) (o q n : Nat) : (s.addObj o n).obj q = if q = o then s.obj o + BitVec.ofNat 32 n else s.obj q :=
  State.obj_setObj ..

@[simp] theorem State.reg_setReg_same (s : State) (o : Nat) (v : W32) : (s.setReg o v).reg o = v := by simp [State.reg_setReg]
@[simp] theorem State.ctx_setCtx_same (s : State) (m : Nat) (c : Ctx) : (s.setCtx m c).ctx m = c := by simp [State.ctx_setCtx]
@[simp] theorem State.plain_setPlain_same (s : State) (p : Nat) (x : Plain) : (s.setPlain p x).plain p = x := by simp [State.plain_setPlain]
@[simp] theorem State.pair_setPair_same (s : State) (r : Nat) (x : Pair) : (s.setPair r x).pair r = x := by simp [State.pair_setPair]
@[simp] theorem State.obj_setObj_same (s : State) (o : Nat) (v : W32) : (s.setObj o v).obj o = v := by simp [State.obj_setObj]

@[simp] theorem State.ctx_setReg (s : State) (o : Nat) (v : W32) (m : Nat) : (s.setReg o v).ctx m = s.ctx m := rfl
@[simp] theorem State.plain_setReg (s : State) (o : Nat) (v : W32) (p : Nat) : (s.setReg o v).plain p = s.plain p := rfl
@[simp] theorem State.pair_setReg (s : State) (o : Nat) (v : W32) (r : Nat) : (s.setReg o v).pair r = s.pair r := rfl
@[simp] theorem State.obj_setReg (s : State) (o : Nat) (v : W32) (k : Nat) : (s.setReg o v).obj k = s.obj k := rfl
@[simp] theorem State.reg_setCtx (s : State) (m : Nat) (c : Ctx) (o : Nat) : (s.setCtx m c).reg o = s.reg o := rfl
@[simp] theorem State.plain_setCtx (s : State) (m : Nat) (c : Ctx) (p : Nat) : (s.setCtx m c).plain p = s.plain p := rfl
@[simp] theorem State.reg_setPlain (s : State) (p : Nat) (x : Plain) (o : Nat) : (s.setPlain p x).reg o = s.reg o := rfl
@[simp] theorem State.ctx_setPlain (s : State) (p : Nat) (x : Plain) (m : Nat) : (s.setPlain p x).ctx m = s.ctx m := rfl
@[simp] theorem State.reg_setPair (s : State) (r : Nat) (x : Pair) (o : Nat) : (s.setPair r x).reg o = s.reg o := rfl
@[simp] theorem State.ctx_setPair (s : State) (r : Nat) (x : Pair) (m : Nat) : (s.setPair r x).ctx m = s.ctx m := rfl
@[simp] theorem State.reg_setObj (s : State) (k : Nat) (v : W32) (o : Nat) : (s.setObj k v).reg o = s.reg o := rfl

/-! ### Folds -/

/-- A relation that every pass of a fold keeps, a fold keeps. -/
theorem foldl_rel {α β : Type} (R : α → α → Prop) (refl : ∀ a, R a a) (trans : ∀ a b c, R a b → R b c → R a c) (f : α → β → α)
    (step : ∀ a x, R a (f a x)) (l : List β) (a : α) : R a (l.foldl f a) := by
  induction l generalizing a with
  | nil => exact refl a
  | cons x l ih => exact trans _ _ _ (step a x) (ih (f a x))

/-- A property that every pass of a fold keeps, a fold keeps. -/
theorem foldl_inv {α β : Type} (P : α → Prop) (f : α → β → α) (step : ∀ a x, P a → P (f a x)) (l : List β) (a : α) (h : P a) :
    P (l.foldl f a) := by
  induction l generalizing a with
  | nil => exact h
  | cons x l ih => exact ih (f a x) (step a x h)

/-! ### The event log -/

/-- The entry that logAdd appends. -/
theorem State.logAdd_log (s : State) (kind : Nat) (c : Option Nat) (code cls idx a b e : Nat) :
    ∃ x : Words, (s.logAdd kind c code cls idx a b e).log = (x :: s.log).take 16384 ∧ wordAt x 2 = s.logHead ∧
      wordAt x 3 = BitVec.ofNat 32 (kind * 2 ^ 24 + (match c with | some m => m % 16 * 2 ^ 20 + 2 ^ 19 | none => 0) + code % 2 ^ 16) ∧
      wordAt x 4 = BitVec.ofNat 32 (cls * 2 ^ 28 + idx % 2 ^ 16) ∧ wordAt x 5 = BitVec.ofNat 32 a ∧ wordAt x 6 = BitVec.ofNat 32 b ∧
      wordAt x 7 = BitVec.ofNat 32 e := by
  cases c <;> exact ⟨_, rfl, rfl, rfl, rfl, rfl, rfl, rfl⟩

theorem State.logAdd_frame (s : State) (kind : Nat) (c : Option Nat) (code cls idx a b e : Nat) :
    s.logAdd kind c code cls idx a b e = { s with log := (s.logAdd kind c code cls idx a b e).log, logHead := s.logHead + 1,
                                                   regs := (s.logAdd kind c code cls idx a b e).regs } := by
  cases c <;> rfl

@[simp] theorem State.logAdd_logHead (s : State) (kind : Nat) (c : Option Nat) (code cls idx a b e : Nat) :
    (s.logAdd kind c code cls idx a b e).logHead = s.logHead + 1 := by cases c <;> rfl

/-- Of the registers, an entry changes LOG_CTX_LAST of its context only. -/
theorem State.logAdd_reg (s : State) (kind : Nat) (c : Option Nat) (code cls idx a b e o : Nat) (h : ∀ m, c = some m → o ≠ 0xC8100 + 4 * m) :
    (s.logAdd kind c code cls idx a b e).reg o = s.reg o := by
  cases c with
  | none => rfl
  | some m => exact (State.reg_setReg ..).trans (if_neg (h m rfl))

theorem State.logAdd_length (s : State) (kind : Nat) (c : Option Nat) (code cls idx a b e : Nat) :
    (s.logAdd kind c code cls idx a b e).log.length ≤ 16384 := by
  obtain ⟨x, h, -⟩ := s.logAdd_log kind c code cls idx a b e
  rw [h, List.length_take]; omega

/-! ### Completions -/

/-- A vector signalled leaves, or becomes pending (R487, R511). -/
theorem State.sendMsix_frame (s : State) (v : Nat) :
    s.sendMsix v = { s with regs := (s.sendMsix v).regs, hostTx := (s.sendMsix v).hostTx } := by
  simp only [State.sendMsix]; split
  · rfl
  · split <;> rfl

/-- Of the registers, a vector changes the pending-bit array only. -/
theorem State.sendMsix_reg (s : State) (v o : Nat) (h : o ≠ 0xE8000) : (s.sendMsix v).reg o = s.reg o := by
  simp only [State.sendMsix]; split
  · rfl
  · split
    · exact (State.reg_setReg ..).trans (if_neg h)
    · rfl

theorem State.sendMsix_hostTx (s : State) (v : Nat) :
    (s.sendMsix v).hostTx = s.hostTx ∨ (s.sendMsix v).hostTx = s.hostTx ++ [.msix v] := by
  simp only [State.sendMsix]; split
  · exact .inl rfl
  · split
    · exact .inl rfl
    · exact .inr rfl

/-- The same where a vector may be signalled. -/
theorem State.sendMsixIf_frame (s : State) (v : Nat) (c : Bool) :
    ∃ g h, (if c then s.sendMsix v else s) = { s with regs := g, hostTx := h } := by
  cases c
  · exact ⟨s.regs, s.hostTx, rfl⟩
  · exact ⟨_, _, s.sendMsix_frame v⟩

theorem State.sendMsixIf_reg (s : State) (v : Nat) (c : Bool) (o : Nat) (h : o ≠ 0xE8000) : (if c then s.sendMsix v else s).reg o = s.reg o := by
  cases c
  · rfl
  · exact s.sendMsix_reg v o h

theorem State.postNow_frame (s : State) (r : Nat) (ws : Words) :
    s.postNow r ws = { s with pairs := (s.postNow r ws).pairs, hostTx := (s.postNow r ws).hostTx, regs := (s.postNow r ws).regs } := by
  simp only [State.postNow]
  obtain ⟨g, h, e⟩ := State.sendMsixIf_frame { s with hostTx := s.hostTx ++ _ } r (bit (s.reg (offHif r 0x18)) 31 && _)
  rw [e]; rfl

theorem State.postNow_reg (s : State) (r : Nat) (ws : Words) (o : Nat) (h : o ≠ 0xE8000) : (s.postNow r ws).reg o = s.reg o :=
  (State.reg_setPair ..).trans (State.sendMsixIf_reg _ _ _ _ h)

theorem State.post_frame (s : State) (r : Nat) (ws : Words) :
    s.post r ws = { s with pairs := (s.post r ws).pairs, hostTx := (s.post r ws).hostTx, regs := (s.post r ws).regs } := by
  simp only [State.post]; split
  · exact s.postNow_frame r ws
  · split <;> rfl

theorem State.post_reg (s : State) (r : Nat) (ws : Words) (o : Nat) (h : o ≠ 0xE8000) : (s.post r ws).reg o = s.reg o := by
  simp only [State.post]; split
  · exact s.postNow_reg r ws o h
  · split <;> rfl

theorem State.event_frame (s : State) (kind m status plain : Nat) (tag : W32) (d : Words) :
    s.event kind m status plain tag d =
      { s with pairs := (s.event kind m status plain tag d).pairs, hostTx := (s.event kind m status plain tag d).hostTx,
               regs := (s.event kind m status plain tag d).regs } := s.post_frame ..

theorem State.event_reg (s : State) (kind m status plain : Nat) (tag : W32) (d : Words) (o : Nat) (h : o ≠ 0xE8000) :
    (s.event kind m status plain tag d).reg o = s.reg o := s.post_reg _ _ _ h

theorem State.fetchEntry_frame (s : State) (r : Nat) : s.fetchEntry r = { s with hostTx := (s.fetchEntry r).hostTx } := by
  simp only [State.fetchEntry]; split <;> rfl

theorem State.complete_frame (s : State) (r status : Nat) (d : Words) :
    s.complete r status d = { s with pairs := (s.complete r status d).pairs, hostTx := (s.complete r status d).hostTx,
                                     regs := (s.complete r status d).regs } := by
  simp only [State.complete]; split
  · rfl
  · rw [State.fetchEntry_frame, State.post_frame]; rfl

theorem State.complete_reg (s : State) (r status : Nat) (d : Words) (o : Nat) (h : o ≠ 0xE8000) : (s.complete r status d).reg o = s.reg o := by
  simp only [State.complete]; split
  · rfl
  · rw [State.fetchEntry_frame]; exact (State.post_reg _ _ _ _ h).trans (State.reg_setPair ..)

theorem State.adminMsix_frame (s : State) : s.adminMsix = { s with regs := s.adminMsix.regs, hostTx := s.adminMsix.hostTx } := by
  simp only [State.adminMsix]; split
  · rfl
  · exact s.sendMsix_frame 17

theorem State.adminEvent_frame (s : State) (kind status : Nat) (d : Words) :
    s.adminEvent kind status d = { s with pairs := (s.adminEvent kind status d).pairs, hostTx := (s.adminEvent kind status d).hostTx,
                                          regs := (s.adminEvent kind status d).regs } := by
  simp only [State.adminEvent]; rw [State.adminMsix_frame, State.post_frame]

/-! ### Device memory -/

theorem putMasked_wf (bs : List (Nat × Byte × Byte)) (st : Store Byte) (h : Memory.wf st) : Memory.wf (putMasked st bs) := by
  induction bs generalizing st with
  | nil => exact h
  | cons b bs ih => exact ih _ (storePut_wf _ _ h)

/-- Masked bytes change nothing outside their addresses. -/
theorem putMasked_of_ne (bs : List (Nat × Byte × Byte)) (st : Store Byte) (a : Nat) (h : ∀ b ∈ bs, b.1 ≠ a) :
    storeGet memDefault (putMasked st bs) a = storeGet memDefault st a := by
  induction bs generalizing st with
  | nil => rfl
  | cons b bs ih =>
    rw [putMasked, ih _ fun c hc => h c (List.mem_cons_of_mem _ hc)]
    exact storeGet_storePut_ne _ _ (Ne.symm (h b (List.mem_cons_self ..)))

/-- What a byte reads as after masked bytes: each of them in turn over what was there. -/
theorem putMasked_get (bs : List (Nat × Byte × Byte)) (st : Store Byte) (a : Nat) :
    storeGet memDefault (putMasked st bs) a =
      bs.foldl (fun b x => if x.1 = a then maskByte b x.2.1 x.2.2 else b) (storeGet memDefault st a) := by
  induction bs generalizing st with
  | nil => rfl
  | cons b bs ih =>
    obtain ⟨k, v, m⟩ := b
    rw [putMasked, ih, List.foldl_cons, storeGet_storePut]
    by_cases h : a = k
    · simp [h]
    · simp [h, Ne.symm h]

theorem State.apply_frame (s : State) (w : Writer) (bs : List (Nat × Byte × Byte)) (bad : List Nat) :
    s.apply w bs bad = { s with mem := putMasked s.mem bs, poison := (s.apply w bs bad).poison, msc := (s.apply w bs bad).msc } := rfl

/-- What a byte holds depends on device memory and on the loss of the DDR5 tier alone. -/
theorem State.cell_congr (s t : State) (a : Nat) (hm : storeGet memDefault t.mem a = storeGet memDefault s.mem a) (hd : t.ddrLost = s.ddrLost) :
    t.cell a = s.cell a := by simp only [State.cell, hd, hm]

theorem State.cell_apply_of_ne (s : State) (w : Writer) (bs : List (Nat × Byte × Byte)) (bad : List Nat) (a : Nat) (h : ∀ b ∈ bs, b.1 ≠ a) :
    (s.apply w bs bad).cell a = s.cell a := s.cell_congr _ a (putMasked_of_ne bs s.mem a h) rfl

theorem State.write_frame (s : State) (w : Writer) (bs : List (Nat × Byte × Byte)) (bad : List Nat) :
    s.write w bs bad = { s with mem := (s.write w bs bad).mem, poison := (s.write w bs bad).poison, msc := (s.write w bs bad).msc, cow := (s.write w bs bad).cow } := by
  simp only [State.write]; split <;> rfl

/-- Where copy-on-write is not active a write is applied at once (R423). -/
theorem State.write_of_inactive (s : State) (w : Writer) (bs : List (Nat × Byte × Byte)) (bad : List Nat) (h : s.cowActive = false) :
    s.write w bs bad = s.apply w bs bad := by simp [State.write, h]

/-- A write changes no byte that a requester reads outside the bytes written. -/
theorem State.cell_write_of_ne (s : State) (w : Writer) (bs : List (Nat × Byte × Byte)) (bad : List Nat) (a : Nat) (h : ∀ b ∈ bs, b.1 ≠ a) :
    (s.write w bs bad).cell a = s.cell a := by
  simp only [State.write]; split
  · exact s.cell_congr _ a (putMasked_of_ne _ _ _ fun b hb => h b (List.mem_filter.mp hb).1) rfl
  · exact s.cell_congr _ a (putMasked_of_ne _ _ _ h) rfl

theorem State.apply_wf (s : State) (w : Writer) (bs : List (Nat × Byte × Byte)) (bad : List Nat) (h : Memory.wf s.mem) :
    Memory.wf (s.apply w bs bad).mem :=
  putMasked_wf bs s.mem h

theorem State.write_wf (s : State) (w : Writer) (bs : List (Nat × Byte × Byte)) (bad : List Nat) (h : Memory.wf s.mem) :
    Memory.wf (s.write w bs bad).mem := by
  simp only [State.write]; split <;> exact putMasked_wf _ _ h

theorem State.putArea_wf (s : State) (a n : Nat) (es : List (Nat × Byte)) (h : Memory.wf s.mem) : Memory.wf (s.putArea a n es).mem :=
  foldl_inv (fun m => Memory.wf m) _ (fun _ _ hm => storePut_wf _ _ hm) es _ (storeClear_wf _ _ h)

theorem storeCopy_wf (st : Store Byte) (src dst n : Nat) (h : Memory.wf st) : Memory.wf (storeCopy memDefault st src dst n) :=
  foldl_inv (fun m => Memory.wf m) _ (fun _ _ hm => storePut_wf _ _ hm) _ _ (storeClear_wf _ _ h)

/-- What a requester reads where no write waits. -/
theorem State.byte_of_none (s : State) (a : Nat) (h : s.cow.waiting = []) : s.byte a = s.cell a := by simp [State.byte, h]

/-! ### Packets and answers -/

theorem State.putOn_frame (s : State) (n : Nat) (k : Packet) (f : Option Nat) :
    s.putOn n k f = { s with links := (s.putOn n k f).links, linkTx := (s.putOn n k f).linkTx } := rfl

theorem State.sendFree_frame (s : State) (k : Packet) (f : Option Nat) :
    s.sendFree k f = { s with links := (s.sendFree k f).links, linkTx := (s.sendFree k f).linkTx, txWait := (s.sendFree k f).txWait } := by
  simp only [State.sendFree]; split <;> rfl

/-- A packet that its sender holds is the last of those outstanding. -/
theorem State.sendHeld_frame (s : State) (k : Packet) (o : PkOwner) (n : Nat) :
    s.sendHeld k o n = { s with links := (s.sendHeld k o n).links, linkTx := (s.sendHeld k o n).linkTx, outst := (s.sendHeld k o n).outst } := by
  simp only [State.sendHeld]; split <;> rfl

theorem State.sendHeld_outst (s : State) (k : Packet) (o : PkOwner) (n : Nat) : ∃ l, (s.sendHeld k o n).outst = s.outst ++ [⟨k, l, n, o⟩] := by
  simp only [State.sendHeld]; split <;> exact ⟨_, rfl⟩

theorem State.portSend_frame (s : State) (port prio : Nat) (o : EthOut) (n : Nat) :
    s.portSend port prio o n = { s with ethTx := (s.portSend port prio o n).ethTx, ethWait := (s.portSend port prio o n).ethWait,
                                        regs := (s.portSend port prio o n).regs } := by
  simp only [State.portSend]; split
  · rfl
  · split <;> rfl

/-- Where the port is up and the priority is not paused a frame leaves (R524, R536). -/
theorem State.ethSend_of_up (s : State) (q : Nat) (o : EthOut) (n : Nat) (h : s.portUp (s.qpPort q) = true)
    (hp : (storeGet zeroNat s.pfc (s.qpPort q)).testBit (s.qpPrio q) = false) :
    s.ethSend q o n = { s with ethTx := s.ethTx ++ [o], regs := (s.ethSend q o n).regs } := by
  simp [State.ethSend, State.portSend, h, hp, State.ethCount, State.bump, State.setReg, State.reg]

theorem State.ethSend_frame (s : State) (q : Nat) (o : EthOut) (n : Nat) :
    s.ethSend q o n = { s with ethTx := (s.ethSend q o n).ethTx, ethWait := (s.ethSend q o n).ethWait, regs := (s.ethSend q o n).regs } :=
  s.portSend_frame ..

theorem State.sendAck_frame (s : State) (a : Ack) :
    s.sendAck a = { s with links := (s.sendAck a).links, linkTx := (s.sendAck a).linkTx, txWait := (s.sendAck a).txWait,
                           ethTx := (s.sendAck a).ethTx, ethWait := (s.sendAck a).ethWait, regs := (s.sendAck a).regs } := by
  cases a
  · simp only [State.sendAck, State.sendFree]; split <;> rfl
  · simp only [State.sendAck]; rw [State.ethSend_frame]

/-- Where no answer waits, nothing is settled. -/
theorem State.settleAcks_of_none (s : State) (h : s.acks = []) (hr : s.win.reads = []) : s.settleAcks = s := by
  have hw : ({ s with acks := [] } : State) = s := by rw [← h]
  have hv : ({ s with acks := [], win := { s.win with reads := [] } } : State) = s := by rw [← h, ← hr]
  simp only [State.settleAcks, h, List.filter_nil, List.foldl_nil, State.answerWin, hr]
  split
  · exact hw
  · exact hv

end Sys2Proof.Machine
end

