-- ==== Sys2Proof/WellFormed.lean ====
section
/-! DEFINITION. Which commands can be sent: operands within the ranges the spec gives them. The machine answers any other command too. -/

namespace Sys2Proof

/-- A requester of registers: a context view, the privileged map, the management core (R492, R493, R606). -/
def requesterOk (v : Nat) : Bool := v ≤ 17

/-- A byte of BAR0 (R491), and an aligned word of it. -/
def offsetOk (off : Nat) : Bool := off < 2 ^ 21
def wordOffsetOk (off : Nat) : Bool := off < 2 ^ 21 && off % 4 = 0

/-- A word of the configuration space of PCI Express (R487). -/
def configOk (off : Nat) : Bool := off < 4096 && off % 4 = 0

/-- The 16 words of a submission entry (R498). -/
def entryOk (e : Words) : Bool := e.length = 16

/-- A packet: eight header words, and at most 2,048 bytes of data (R440). -/
def packetOk (k : Packet) : Bool := k.hdr.length = 8 && k.data.length ≤ 2048

/-- Bytes of the window, 512 MiB (R516). -/
def windowOk (off len : Nat) : Bool := 0 < len && off + len ≤ 2 ^ 29

/-- What bring-up finds: eight channels, 16 cages and two Ethernet cages, and no more sensors than MGT_SENSORS counts (R628, R669). -/
def bringupOk (o : BringupObs) : Bool := o.rdimms.length = 8 && o.cages.length = 16 && o.ethCages.length = 2 && o.sensors ≤ 255

/-- SPDM and PLDM reach the device over MCTP or DOE, and never through the mailbox (R657). -/
def mctpOk (i : MgtIface) : Bool := i = .header || i = .vdm
def spdmOk (i : MgtIface) : Bool := i ≠ .mailbox

/-- The operands of a command are within their ranges. -/
def Instr.wellFormed : Instr → Bool
  | .rxWrite _ k => packetOk k
  | .rxWriteAck _ k => packetOk k
  | .rxWriteNak _ k => packetOk k
  | .rxSignal _ k => packetOk k
  | .rxSignalAck _ k => packetOk k
  | .rxSignalNak _ k => packetOk k
  | .rxCollWrite _ k => packetOk k
  | .rxCollSignal _ k => packetOk k
  | .rxStop _ k => packetOk k
  | .rxCkpt _ k => packetOk k
  | .lnkCtxReshard v _ _ => requesterOk v
  | .hifPairCtrlEn v _ _ => requesterOk v
  | .hifPairCtrlDetach v _ => requesterOk v
  | .schCtxCtrlStart v _ _ => requesterOk v
  | .schCtxCtrlDisarm v _ _ => requesterOk v
  | .schCtxCtrlPause v _ _ => requesterOk v
  | .plnCtrlResume v _ => requesterOk v
  | .cntSelCapture v _ => requesterOk v
  | .logSelCapture v _ => requesterOk v
  | .pairHiWrite v off _ => requesterOk v && wordOffsetOk off
  | .pairLoRead v off => requesterOk v && wordOffsetOk off
  | .regWrite v off _ => requesterOk v && wordOffsetOk off
  | .regMisaligned v off size _ => requesterOk v && offsetOk off && (size ≠ 4 || off % 4 ≠ 0)
  | .doorbellPoll _ o => entryOk o.entry
  | .doorbellLineLost _ o => entryOk o.entry
  | .staleReread _ e => entryOk e
  | .descStale _ e => entryOk e
  | .nop _ e => entryOk e
  | .arm _ e => entryOk e
  | .start _ e => entryOk e
  | .pause _ e => entryOk e
  | .disarm _ e => entryOk e
  | .syncAdd _ e => entryOk e
  | .copy _ e => entryOk e
  | .netXfer _ e => entryOk e
  | .snapRequest _ e => entryOk e
  | .ckpCommit _ e => entryOk e
  | .ckpRestore _ e => entryOk e
  | .fwActivate _ e => entryOk e
  | .winRead w len => windowOk w.off len
  | .winWrite w data => windowOk w.off data.length
  | .cowPoolWaitEnd slot => slot < 2 ^ 32
  | .bringupPhaseEnd o => bringupOk o
  | .debugUnlock _ _ q => q.length = 269
  | .mctpControl i _ => mctpOk i
  | .getTid i => mctpOk i
  | .setTid i _ => mctpOk i
  | .getPldmVersion i _ => mctpOk i
  | .getPldmTypes i => mctpOk i
  | .getPldmCommands i _ => mctpOk i
  | .getPdr i _ => mctpOk i
  | .getSensorReading i _ => mctpOk i
  | .queryDeviceIdentifiers i => mctpOk i
  | .getFirmwareParameters i => mctpOk i
  | .requestUpdate i => mctpOk i
  | .passComponentTable i _ => mctpOk i
  | .updateComponent i _ => mctpOk i
  | .requestFirmwareData i _ _ => mctpOk i
  | .transferComplete i => mctpOk i
  | .verifyComplete i => mctpOk i
  | .applyComplete i => mctpOk i
  | .activateFirmware i => mctpOk i
  | .pldmGetStatus i => mctpOk i
  | .cancelUpdate i => mctpOk i
  | .getVersion i => spdmOk i
  | .getCapabilities i => spdmOk i
  | .negotiateAlgorithms i => spdmOk i
  | .getDigests i => spdmOk i
  | .getCertificate i slot off len => spdmOk i && slot < 8 && off < 2 ^ 16 && len < 2 ^ 16
  | .challenge i slot nonce => spdmOk i && slot < 8 && nonce.length = 32
  | .getMeasurements i _ signed nonce => spdmOk i && (! signed || nonce.length = 32)
  | .keyExchange i _ share => spdmOk i && share.length = 132
  | .finish i _ _ => spdmOk i
  | .spdmHeartbeat i _ => spdmOk i
  | .keyUpdate i _ => spdmOk i
  | .endSession i _ => spdmOk i
  | .chunkGet i chunk => spdmOk i && chunk < 2 ^ 16
  | .matmul _ => true
  | .drain _ => true
  | .prefetch _ => true
  | .wgrad _ => true
  | .tileLoad _ => true
  | .normFwd _ => true
  | .normBwd _ => true
  | .statSum _ => true
  | .attnFwd _ => true
  | .attnBwd _ => true
  | .attnMerge _ => true
  | .signal _ => true
  | .wait _ => true
  | .stepEnd _ => true
  | .pageWalk _ => true
  | .pageWalkEntriesRead _ => true
  | .dma _ => true
  | .dmaEnd _ _ => true
  | .coll _ => true
  | .collRankTableRead _ _ => true
  | .collFreeMet _ _ => true
  | .collArriveMet _ _ => true
  | .collPhase1Met _ _ => true
  | .collEnd _ _ => true
  | .cmpTable _ => true
  | .cmpTableSlotWaitEnd _ => true
  | .snapshot _ => true
  | .issueFullEnd _ => true
  | .streamFetchEnd _ => true
  | .fenceMet _ => true
  | .waitDone _ => true
  | .syncTimeout _ => true
  | .coreCmdStart _ _ _ => true
  | .tileCmdEnd _ _ => true
  | .specMapCheck _ _ => true
  | .specCommit _ _ => true
  | .rankExchange _ _ => true
  | .bgPrefetchPromote _ _ => true
  | .flitReceive _ _ => true
  | .replayTimeout _ => true
  | .linkReplayLimit _ => true
  | .linkRxLoss _ => true
  | .packetSettleTimeout _ => true
  | .lnkCtrlEn _ _ => true
  | .linkTrained _ _ => true
  | .colModReset _ _ => true
  | .colModPwr _ _ => true
  | .d2dRetryLimit => true
  | .copyComplete _ _ => true
  | .netXferComplete _ => true
  | .overflowQueuePost _ => true
  | .irqCoalesce _ => true
  | .hostReadTimeout _ => true
  | .pcieLinkDown => true
  | .functionLevelReset => true
  | .perst => true
  | .winMove _ => true
  | .winBiasSet _ _ => true
  | .rdmaWriteRequest _ _ _ _ _ => true
  | .rdmaReadRequest _ _ _ _ _ => true
  | .rdmaResponse _ _ => true
  | .qpAckTimeout _ => true
  | .cnpReceive _ => true
  | .cnpRateRaise _ => true
  | .arpRequest _ _ => true
  | .neighbourSolicitation _ _ => true
  | .ethFrameDrop _ => true
  | .ethSelLoad _ _ => true
  | .ethSelCommit _ _ => true
  | .synObjValueWrite _ => true
  | .cowActiveSet _ => true
  | .cowActiveClear _ => true
  | .cowPageCopy => true
  | .scrubFull => true
  | .scrubLine _ _ => true
  | .scrubPassEnd _ => true
  | .hbmTempHigh _ _ => true
  | .hbmTempNormal _ _ => true
  | .hbmStackFail _ => true
  | .ddrTempHigh _ _ => true
  | .ddrTempNormal _ _ => true
  | .ddrChannelFail _ _ => true
  | .eccRateCheck => true
  | .ckpDrainRead => true
  | .ckpPrepare => true
  | .ageMeasure _ _ _ => true
  | .pwrMeasure _ => true
  | .pwrClockLower => true
  | .pwrClockRaise => true
  | .pwrFloor => true
  | .thermalThrottle _ => true
  | .thermalRecover _ => true
  | .rstThermal _ => true
  | .powerUp => true
  | .pwrEnRise => true
  | .rstPowerOff => true
  | .inputUndervolt => true
  | .overcurrentTrip => true
  | .rstN => true
  | .warmN => true
  | .rstCtrlCold => true
  | .rstCtrlWarm => true
  | .rstCtx _ => true
  | .ctxResetApply _ => true
  | .secAlarm _ => true
  | .dbgCtrlStop => true
  | .dbgCtrlResume => true
  | .scanOutDone => true
  | .cntGlbClear => true
  | .getStatus _ _ => true
  | .getIdentity _ _ => true
  | .getSensor _ _ _ => true
  | .heartbeat _ _ _ => true
  | .keyErase _ _ _ => true
  | .fwCommit _ _ _ => true
  | .fullScrub _ _ => true
  | .debugChallenge _ _ => true
  | .longOperationEnd => true
  | .hbTimeout => true
  | .flashAccessComplete _ => true
  | .backInvalidationDone _ => true
  | .configurationRequest (.read off) => configOk off
  | .configurationRequest (.write off _ _) => configOk off
  | .pcieLinkUp _ => true
  | .pfcFrame _ _ _ => true
  | .thermalResetRelease _ => true

end Sys2Proof
end

