-- ==== Sys2Proof/Tests/Slice0.lean ====
section
/-! SUPPORT. Tests: what the well-formedness check refuses, and for every statement a state and operands that meet its hypotheses. -/

set_option Elab.async false

namespace Sys2Proof.Tests

open Sys2Proof.Machine Sys2Proof.Claims

/-! ### Helpers -/

/-- `n` words, zero but for those listed. -/
def words (n : Nat) (l : List (Nat × Nat)) : Words :=
  (List.range n).map fun i => match l.find? fun x => x.1 = i with | some x => BitVec.ofNat 32 x.2 | none => 0

/-- Registers set. -/
def regs (s : State) (l : List (Nat × Nat)) : State := l.foldl (fun s x => s.setReg x.1 (BitVec.ofNat 32 x.2)) s

/-- The device in READY, its memory space enabled. -/
def up : State := { State.reset with regs := [(0xB0000, 0xA0000000#32)], board := { State.reset.board with level := .none }, pci := [(4, 0x00100002#32)] }

/-- Context 0 runs on plain 0 and may read and write the first 4 GiB; it owns local objects 4096 to 4111 and global objects 0 to 15. -/
def run0 : State :=
  (regs up [(0x59000, 0x80000000), (0x20408, 2048), (0x2040C, 0x80000003), (0x50100, 0x900F1000), (0x50104, 0x800F0000)]).setCtx 0
    { Ctx.reset with st := .running, runTag := 7 }

/-- Plain 0 has reached the command `ws`. -/
def atCmd (s : State) (ws : Words) : State := s.setPlain 0 { Plain.reset with pcc := .issuing, fetched := some ws }

/-- A pair of 16 entries is ACTIVE, with one entry to read. -/
def ringUp (s : State) (r : Nat) : State := s.setPair r { Pair.reset with st := .active, en := true, sqTail := 1 }

/-- An entry of opcode `op` at index 0: SEQ 0, PHASE 1. -/
def entry (op : Nat) (l : List (Nat × Nat)) : Words := words 16 ((0, 0x8000 + op) :: (1, 0x55) :: l)

/-- A packet with its check word. -/
def packet (ptype vc dst src w1 w2 w3 w4 w5 w6 : Nat) (data : Bytes) : Packet :=
  let k : Packet := ⟨[BitVec.ofNat 32 (ptype * 2 ^ 28 + vc * 2 ^ 26 + dst * 2 ^ 12 + src), BitVec.ofNat 32 w1, BitVec.ofNat 32 w2, BitVec.ofNat 32 w3,
    BitVec.ofNat 32 w4, BitVec.ofNat 32 w5, BitVec.ofNat 32 w6, 0], data⟩
  { k with hdr := k.hdr.take 7 ++ [k.crc] }

/-- This device is device 5, and its link 0 is UP. -/
def linkUp (s : State) : State := regs s [(0x70004, 0x80000005), (0x71000, 0x80000000)]

/-- Bytes put in device memory. -/
def put (s : State) (a : Nat) (bs : Bytes) : State := { s with mem := storePutRun memDefault s.mem a bs }

/-- The state that a command answers. -/
def go (c : Instr) (s : State) : State := nextOf s (exec c s)

/-- A MATMUL of one tile on core 0: A at 0x10000 and B at 0x20000, 64 × 64 in BF16. -/
def mm : Words := words 32 [(0, 0x00010201), (2, 9), (4, 0x401), (5, 1), (12, 0x10000), (13, 0x0202), (16, 0x10000), (18, 64), (19, 64), (20, 1), (21, 1),
  (24, 0x20000), (26, 64), (27, 64), (28, 1), (29, 1)]

def routed (s : State) : State := { linkUp s with routes := [(8, 0x80000001#32), (9, 0x80000001#32)] }

/-- A DMA that copies 128 bytes from 0x3000 to 0x5000 and adds 1 to object 4096. -/
def dm : Words := words 32 [(0, 0x225), (2, 5), (4, 0x41001000), (11, 128), (16, 0x3000), (24, 0x5000)]
/-- A COLL: an ALL_GATHER of 64 bytes among ranks 0 and 1, this device being rank 0. -/
def cl : Words := words 32 [(0, 0x226), (2, 5), (4, 0x80000000), (5, 1), (6, 3), (7, 4), (8, 1), (13, 64), (14, 1), (16, 0x3000), (18, 0x5000), (22, 0x7000),
  (24, 0x8000)]

/-! ### Well-formedness: one ill-formed term for each check -/

theorem test_wf_requester : Instr.wellFormed (.logSelCapture 18 0) = false := by decide
theorem test_wf_offset : Instr.wellFormed (.regMisaligned 16 0x200000 2 false) = false := by decide
theorem test_wf_word_offset : Instr.wellFormed (.regWrite 16 0x10002 0) = false := by decide
theorem test_wf_aligned_access : Instr.wellFormed (.regMisaligned 16 0x10000 4 false) = false := by decide
theorem test_wf_entry : Instr.wellFormed (.nop 0 []) = false := by decide
theorem test_wf_packet_header : Instr.wellFormed (.rxStop 0 ⟨[], []⟩) = false := by decide
theorem test_wf_packet_data : Instr.wellFormed (.rxWrite 0 ⟨List.replicate 8 0, List.replicate 2049 0⟩) = false := by decide +kernel
theorem test_wf_window : Instr.wellFormed (.winRead ⟨.bar4, 0x1FFFFFFF⟩ 2) = false := by decide
theorem test_wf_bringup : Instr.wellFormed (.bringupPhaseEnd ⟨true, true, 0xFFF, [], 0, 0, [], []⟩) = false := by decide
theorem test_wf_mctp : Instr.wellFormed (.getTid .doe) = false := by decide
theorem test_wf_spdm : Instr.wellFormed (.getVersion .mailbox) = false := by decide
theorem test_wf_unlock : Instr.wellFormed (.debugUnlock .mailbox 0 []) = false := by decide
theorem test_wf_pool_page : Instr.wellFormed (.cowPoolWaitEnd (2 ^ 32)) = false := by decide
theorem test_wf_certificate : Instr.wellFormed (.getCertificate .doe 8 0 16) = false := by decide
theorem test_wf_challenge : Instr.wellFormed (.challenge .doe 0 []) = false := by decide
theorem test_wf_measurements : Instr.wellFormed (.getMeasurements .doe 1 true []) = false := by decide
theorem test_wf_key_exchange : Instr.wellFormed (.keyExchange .doe 0 []) = false := by decide
theorem test_wf_chunk : Instr.wellFormed (.chunkGet .doe 65536) = false := by decide
theorem test_wf_accepts : Instr.wellFormed (.regWrite 17 0x1FFFFC 1) = true := by decide

/-! ### The queue, the invariant, tile commands -/

theorem test_queue : ({ up with pending := [.scrubFull, .warmN] } : State).pending = .scrubFull :: [.warmN] := rfl
theorem test_queue_empty : up.pending = [] := rfl
theorem test_step_runs_front : (nextOf up (step { up with pending := [.scrubFull, .warmN] })).pending = [.warmN] := by decide +kernel

theorem test_inv_up : Inv up := ⟨by decide, by decide +kernel, by decide, by decide, by decide +kernel, by decide +kernel, by decide, trivial⟩

theorem test_at_matmul : AtCommand (atCmd run0 mm) 0 0 mm 0x01 := by constructor <;> decide +kernel
theorem test_matmul_in_table : (.matmul 0, 0x01) ∈ tileCommands 0 := by decide
theorem test_matmul_checks : (atCmd run0 mm).tileCheck 0 0 mm ((atCmd run0 mm).tileSpecOf 0 mm) = none ∧
    ∀ q ∈ maskPos (hdrMask mm), (atCmd run0 mm).queueLen 0 q < 8 := by decide +kernel

/-- A command of each other tile type that passes its checks, on core 0. -/
def dr : Words := words 64 [(0, 0x00010402), (2, 9), (4, 0x21), (16, 0x10000), (18, 64), (19, 64), (20, 1), (21, 1)]
def af : Words := words 80 [(0, 0x00010503), (2, 9), (4, 0x08000000), (7, 0x8000), (13, 1), (16, 0x10000), (17, 0x401), (24, 0x10000), (26, 64), (27, 64), (28, 1),
  (29, 1), (32, 0x20000), (34, 64), (35, 64), (36, 1), (37, 1), (40, 0x30000), (42, 64), (43, 64), (44, 1), (45, 1)]
def ab : Words := words 80 [(0, 0x00010504), (2, 9), (4, 0x48000000), (13, 1), (16, 0x10000), (17, 0x401), (24, 0x10000), (26, 64), (27, 64), (28, 1),
  (29, 1), (32, 0x20000), (34, 64), (35, 64), (36, 1), (37, 1), (40, 0x30000), (42, 64), (43, 64), (44, 1), (45, 1), (48, 0x40000), (50, 64), (51, 64), (52, 1),
  (53, 1), (56, 0x50000), (58, 64), (59, 1), (61, 1), (72, 0x60000), (74, 64), (75, 1), (77, 1)]
def am : Words := words 48 [(0, 0x00010305), (2, 9), (5, 1), (8, 0x9000), (16, 0x10000), (18, 64), (19, 65), (21, 2), (24, 0x20000), (26, 1), (27, 64), (28, 1),
  (29, 1), (32, 0x30000), (34, 1), (35, 1), (37, 1)]
def nf : Words := words 64 [(0, 0x00010406), (2, 9), (5, 1), (9, 0x1000), (16, 0x10000), (18, 1), (19, 64), (20, 1), (21, 1), (24, 0x20000), (26, 1), (27, 64),
  (28, 1), (29, 1), (48, 0x30000), (50, 1), (51, 2), (53, 1)]
def nb : Words := (((((((nf.set 0 0x00010407).set 4 0x04000000).set 40 0x40000).set 42 1).set 43 64).set 44 1).set 45 1)
def wg : Words := (mm.set 0 0x00010308).set 4 0x501 ++ List.replicate 16 0
def tl : Words := words 32 [(0, 0x00010209), (2, 9), (4, 1), (16, 0x10000), (18, 64), (19, 64), (20, 1), (21, 1)]
def ss : Words := words 16 [(0, 0x0001010A), (2, 9), (5, 1)]
def pf : Words := words 32 [(0, 0x0001021F), (2, 9), (5, 0x00010001), (8, 0x1000), (16, 0x10000), (18, 64), (19, 64), (20, 1), (21, 1)]
/-- One slot of statistics; tile 31 of the accumulator of core 0 is OPEN, and a DRAIN names it. -/
def forms : State := { regs run0 [(0x58020, 1)] with accOpen := [(0, 2 ^ 31)] }
def tileForms : List (Instr × Words × Nat) :=
  [(.matmul 0, mm, 0x01), (.drain 0, dr.set 4 0x1F0021, 0x02), (.attnFwd 0, af, 0x03), (.attnBwd 0, ab, 0x04), (.attnMerge 0, am, 0x05), (.normFwd 0, nf, 0x06),
   (.normBwd 0, nb, 0x07), (.wgrad 0, wg, 0x08), (.tileLoad 0, tl, 0x09), (.statSum 0, ss, 0x0A), (.prefetch 0, pf, 0x1F)]
theorem test_at_tile (x : Instr × Words × Nat) (h : x ∈ tileForms) : AtCommand (atCmd forms x.2.1) 0 0 x.2.1 x.2.2 := by
  simp only [tileForms, List.mem_cons, List.mem_nil_iff, or_false] at h
  rcases h with rfl | rfl | rfl | rfl | rfl | rfl | rfl | rfl | rfl | rfl | rfl <;> constructor <;> decide +kernel
theorem test_tile_issued (x : Instr × Words × Nat) (h : x ∈ tileForms) :
    (atCmd forms x.2.1).tileCheck 0 0 x.2.1 ((atCmd forms x.2.1).tileSpecOf 0 x.2.1) = none ∧ hdrMask x.2.1 = 1 ∧ (atCmd forms x.2.1).queueLen 0 0 = 0 ∧
    ((go x.1 (atCmd forms x.2.1)).plain 0).issued.length = 1 := by
  simp only [tileForms, List.mem_cons, List.mem_nil_iff, or_false] at h
  rcases h with rfl | rfl | rfl | rfl | rfl | rfl | rfl | rfl | rfl | rfl | rfl <;> decide +kernel
/-- The queue of core 0 is full, and has room again. -/
def tileHeld (n : Nat) : State :=
  (atCmd forms pf).setPlain 0 { (atCmd forms pf).plain 0 with hold := .issueFull, issued := (List.range n).map fun k => ⟨k, pf, 0, 0, false, [⟨0, .queued, [], []⟩], []⟩ }
theorem test_tile_held : (tileHeld 8).queueLen 0 0 = 8 ∧ ((tileHeld 8).plain 0).fetched = some pf ∧ (tileHeld 8).owner 0 = some 0 ∧ (tileHeld 8).running = true ∧
    ((go (.issueFullEnd 0) (tileHeld 8)).plain 0).hold = .issueFull ∧ ((go (.issueFullEnd 0) (tileHeld 7)).plain 0).issued.length = 8 := by decide +kernel

/-- The same with a reserved bit of the header set, on the highest core. -/
def mmBad : Words := (mm.set 0 0x80000201).set 3 0x4000
theorem test_at_matmul_bad : AtCommand (atCmd run0 mmBad) 0 0 mmBad 0x01 := by constructor <;> decide +kernel
theorem test_matmul_bad : (atCmd run0 mmBad).tileCheck 0 0 mmBad ((atCmd run0 mmBad).tileSpecOf 0 mmBad) = some (0x0B01, 15, none) ∧
    ((atCmd run0 mmBad).ctx 0).st = .running ∧ (atCmd run0 mmBad).ckp.phase = .idle ∧ bit ((atCmd run0 mmBad).reg 0x98000) 4 = false ∧
    bit ((atCmd run0 mmBad).reg (offPln 0 8)) 31 = false ∧ bit ((atCmd run0 mmBad).reg (offCore 15 0x28)) 31 = false := by decide +kernel

/-- A MATMUL waits in the queue of core 0. -/
def mmIssued : Issued := ⟨0, mm, 0, 0, false, [⟨0, .queued, [], []⟩], []⟩
def mmQueued : State := run0.setPlain 0 { Plain.reset with issued := [mmIssued] }
theorem test_matmul_starts : mmQueued.oldest 0 0 = some mmIssued ∧ mmQueued.owner 0 = some 0 ∧ mmQueued.running = true ∧
    mmQueued.pathBusy 0 0 mmIssued = false ∧ mmQueued.footBusy 0 0 0 (tileFoot mm) = false ∧ hdrType mm = 0x01 ∧ (mmOf mm).spec = 0 ∧
    (mmOf mm).base + (mmOf mm).mt * (mmOf mm).nt ≤ tileLimit (mmOf mm).dest ∧ (mmOf mm).fieldBad = false := by decide +kernel
theorem test_matmul_reads : mmQueued.effFault 0 (mmQueued.tileStart 0 0 0 mmIssued) = none := by decide +kernel

/-! ### SIGNAL, WAIT, and the engines -/

/-- SIGNAL of 3 to local object 4111, without a fence, and to global object 2 of devices 8 and 9, and of device 5 alone. -/
def sg : Words := words 16 [(0, 0x120), (2, 4), (4, 4111), (5, 3)]
def sgGlob : Words := words 16 [(0, 0x120), (2, 4), (4, 0x80000002), (5, 3), (6, 0x00010008)]
def sgSelf : Words := words 16 [(0, 0x120), (2, 4), (4, 0x80000002), (5, 3), (6, 5)]
theorem test_at_signal : AtCommand (atCmd run0 sg) 0 0 sg 0x20 := by constructor <;> decide +kernel
theorem test_signal : (atCmd run0 sg).sgCheck 0 sg = none ∧ (atCmd run0 sg).fenceMet 0 (sgOf sg).fence = true ∧
    (sgOf sg).glob = false ∧ (atCmd run0 sg).breakMatch 0 sg true = false ∧ (go (.signal 0) (atCmd run0 sg)).obj 4111 = 3 := by decide +kernel
def sgHeld : State := (atCmd run0 sg).setPlain 0 { (atCmd run0 sg).plain 0 with hold := .fence }
theorem test_fence : sgHeld.owner 0 = some 0 ∧ (sgHeld.plain 0).fetched = some sg ∧ sgHeld.running = true ∧ (sgHeld.plain 0).hold = .fence ∧
    sgHeld.fenceMet 0 (sgOf sg).fence = true ∧ (go (.fenceMet 0) sgHeld).obj 4111 = 3 := by decide +kernel
theorem test_at_global : AtCommand (atCmd (routed run0) sgGlob) 0 0 sgGlob 0x20 := by constructor <;> decide +kernel
theorem test_global : (atCmd (routed run0) sgGlob).sgCheck 0 sgGlob = none ∧ (atCmd (routed run0) sgGlob).fenceMet 0 (sgOf sgGlob).fence = true ∧
    (sgOf sgGlob).glob = true ∧ (∀ x ∈ (sgOf sgGlob).devices, (atCmd (routed run0) sgGlob).isSelf x = false) ∧
    (go (.signal 0) (atCmd (routed run0) sgGlob)).outst.map (fun o => (o.pk.dst, o.pk.runTag, o.pk.obj, o.pk.add)) = [(8, 7, 2, 3), (9, 7, 2, 3)] := by
  decide +kernel
theorem test_global_self : (atCmd (routed run0) sgSelf).sgCheck 0 sgSelf = none ∧ (sgOf sgSelf).count = 0 ∧
    (atCmd (routed run0) sgSelf).isSelf (sgOf sgSelf).dev = true ∧ (go (.signal 0) (atCmd (routed run0) sgSelf)).obj 2 = 3 := by decide +kernel

/-- WAIT for object 4100 to reach 10. -/
def wt : Words := words 16 [(0, 0x121), (2, 6), (4, 4100), (5, 10)]
def wtAt (v : W32) : State := atCmd (run0.setObj 4100 v) wt
theorem test_at_wait (v : W32) (h : v ∈ [10#32, 9#32, 0x4000000A#32]) : AtCommand (wtAt v) 0 0 wt 0x21 := by
  simp only [List.mem_cons, List.mem_nil_iff, or_false] at h
  rcases h with rfl | rfl | rfl <;> constructor <;> decide +kernel
theorem test_wait_form : hdrReserved wt = false ∧ anyBits wt [(4, 0xFFFFC000), (6, 0xFFFF0000)] = false ∧ anyWords wt 7 16 = false ∧
    pccHdrBad wt 1 = false ∧ (wtAt 9).ownsObj 0 (bits (wordAt wt 4) 13 0) = true := by decide +kernel
theorem test_wait_reached : ((go (.wait 0) (wtAt 10)).plain 0).fetched = none ∧ ((go (.wait 0) (wtAt 0x40000009)).plain 0).pos = 64 := by decide +kernel
theorem test_wait_waits : ((go (.wait 0) (wtAt 9)).plain 0).pcc = .waiting ∧ ((go (.wait 0) (wtAt 0xC000000B)).plain 0).pcc = .waiting := by decide +kernel
theorem test_wait_range : ((go (.wait 0) (wtAt 0x4000000A)).ctx 0).st = .halted ∧ ((go (.wait 0) (wtAt 0xC000000A)).ctx 0).st = .halted := by decide +kernel
def wtWaits (v : W32) : State := (wtAt v).setPlain 0 { (wtAt v).plain 0 with pcc := .waiting, waitObj := 4100, target := 10 }
theorem test_wait_done : (wtWaits 10).owner 0 = some 0 ∧ ((wtWaits 10).plain 0).fetched = some wt ∧ ((wtWaits 10).plain 0).pcc = .waiting ∧
    ((wtWaits 10).obj 4100 - 10#32).toNat < 0x40000000 ∧ ((go (.waitDone 0) (wtWaits 10)).plain 0).fetched = none := by decide +kernel
def wtLimit : State := regs (wtWaits 9) [(0x58008, 0x00010000)]
theorem test_timeout : wtLimit.owner 0 = some 0 ∧ wtLimit.running = true ∧ wtLimit.waitLimit 0 ≠ 0 ∧ (wtLimit.plain 0).pcc = .waiting ∧
    reached (wtLimit.obj 4100) 10 = false ∧
    bit (wtLimit.reg (offPln 0 8)) 31 = false ∧ (go (.syncTimeout ⟨0, none⟩) wtLimit).reg (offPln 0 8) = 0x80000A04#32 ∧
    ((go (.syncTimeout ⟨0, none⟩) wtLimit).ctx 0).st = .running := by decide +kernel
def wtOut : State := (go (.syncTimeout ⟨0, none⟩) wtLimit).setObj 4100 10
theorem test_resume : wtOut.owner 0 = some 0 ∧ wtOut.ready = true ∧ wtOut.reaches 0 = true ∧ wtOut.running = true ∧ (wtOut.plain 0).jobs = [] ∧
    wtOut.breakMatch 0 wt true = false ∧ (wtOut.plain 0).pcc = .timedOut ∧ (wtOut.plain 0).fetched = some wt ∧
    ((go (.plnCtrlResume 16 0) wtOut).plain 0).fetched = none ∧ ((go (.plnCtrlResume 0 0) wtOut).plain 0).pos = 64 := by decide +kernel

theorem test_at_dma : AtCommand (atCmd run0 dm) 0 0 dm 0x25 := by constructor <;> decide +kernel
theorem test_at_coll : AtCommand (atCmd run0 cl) 0 0 cl 0x26 := by constructor <;> decide +kernel
theorem test_engine : (atCmd run0 dm).dmaCheck 0 dm = none ∧ (atCmd run0 dm).jobRoom 0 = true ∧ (atCmd run0 cl).clCheck 0 cl = none ∧
    (atCmd run0 cl).jobRoom 0 = true ∧ ((go (.dma 0) (atCmd run0 dm)).plain 0).jobs.length = 1 := by decide +kernel
def dmFull : State := (atCmd run0 dm).setPlain 0 { (atCmd run0 dm).plain 0 with hold := .issueFull }
theorem test_issue_full : dmFull.owner 0 = some 0 ∧ (dmFull.plain 0).fetched = some dm ∧ (dmFull.plain 0).hold = .issueFull ∧ hdrType dm = 0x25 ∧
    dmFull.jobRoom 0 = true ∧ ((go (.issueFullEnd 0) dmFull).plain 0).hold = .none := by decide +kernel
def clFull : State := (atCmd run0 cl).setPlain 0 { (atCmd run0 cl).plain 0 with hold := .issueFull }
theorem test_issue_full_coll : (clFull.plain 0).fetched = some cl ∧ hdrType cl = 0x26 ∧ clFull.jobRoom 0 = true ∧
    ((go (.issueFullEnd 0) clFull).plain 0).jobs.length = 1 := by decide +kernel

/-- A PAGE_WALK of two pages of BF16 to core 0; the first entry names a page at 0x10000, the second is null. -/
def pw : Words := words 16 [(0, 0x123), (2, 8), (4, 0x00010210), (5, 0x9000), (8, 2)]
def pwMem : State := put run0 0x9000 [0x01, 0x00, 0x01, 0, 0, 0, 0, 0]
theorem test_at_walk : AtCommand (atCmd pwMem pw) 0 0 pw 0x23 := by constructor <;> decide +kernel
def pwHeld : State := (atCmd pwMem pw).setPlain 0 { (atCmd pwMem pw).plain 0 with hold := .walk }
theorem test_walk : pwCheck pw = none ∧ pwHeld.owner 0 = some 0 ∧ (pwHeld.plain 0).fetched = some pw ∧ pwHeld.running = true ∧ (pwHeld.plain 0).hold = .walk ∧
    pwHeld.readFault 0 [((pwOf pw).table + 8 * (pwOf pw).first, 8 * (pwOf pw).count)] = none ∧
    (∀ q < (pwOf pw).count, leNat (pwHeld.read ((pwOf pw).table + 8 * (pwOf pw).first + 8 * q) 8) % 4096 / 2 = 0) ∧
    ((go (.pageWalkEntriesRead 0) pwHeld).plain 0).jobs.map (fun j => ((dmOf j.words).mode, (dmOf j.words).src.base, (dmOf j.words).mask)) =
      [(1, 0x10000, 1), (3, 0, 1)] := by decide +kernel

/-! ### CMP_TABLE, SNAPSHOT, the stream and its end -/

/-- A CMP_TABLE LOAD of 7 exponents (C8) for handle 255, from 0x6000. -/
def ct : Words := words 16 [(0, 0x124), (2, 9), (4, 0x400000FF), (5, 0x6000)]
def ctMem : State := put (regs run0 [(0x68100, 0x8000FF00)]) 0x6000 [0, 1, 2, 3, 4, 5, 6, 7, 0, 0, 0, 0, 0, 0, 0, 0]
theorem test_at_table : AtCommand (atCmd ctMem ct) 0 0 ct 0x24 := by constructor <;> decide +kernel
theorem test_table : (atCmd ctMem ct).ctCheck 0 ct = none ∧ (ctOf ct).source = 1 ∧ (atCmd ctMem ct).readFault 0 [((ctOf ct).src, 16)] = none ∧
    tableOk (ctOf ct).c12 ((atCmd ctMem ct).read (ctOf ct).src 16) = true ∧ (ctOf ct).clear = false ∧ (ctOf ct).out = 0 ∧
    (atCmd ctMem ct).breakMatch 0 ct true = false ∧
    (atCmd ctMem ct).sweepSlots.slotReady 255 (((atCmd ctMem ct).handleGen 255 + 1) % 16) = true ∧
    (go (.cmpTable 0) (atCmd ctMem ct)).handleGen 255 = 1 := by decide +kernel
def ctHeld : State := ((atCmd ctMem ct).setPlain 0 { (atCmd ctMem ct).plain 0 with hold := .tableSlot, table := [0, 1, 2, 3, 4, 5, 6, 7, 0, 0, 0, 0, 0, 0, 0, 0] })
def ctLast : State := { ctHeld with cmpGen := [(255, 15)], slots := [⟨255, 15, true, [], true⟩] }
theorem test_slot_wait : ctLast.owner 0 = some 0 ∧ (ctLast.plain 0).fetched = some ct ∧ ctLast.running = true ∧ (ctLast.plain 0).hold = .tableSlot ∧
    ctLast.sweepSlots.slotReady 255 ((ctLast.handleGen 255 + 1) % 16) = true ∧ (go (.cmpTableSlotWaitEnd 0) ctLast).handleGen 255 = 0 := by decide +kernel

/-- The table is installed, and its writes have been applied. -/
def ctWrote : State := (atCmd ctMem ct).setPlain 0 { (atCmd ctMem ct).plain 0 with hold := .tableWrites }
theorem test_table_writes : (ctWrote.plain 0).fetched = some ct ∧ (ctWrote.plain 0).hold = .tableWrites ∧ ctWrote.owner 0 = some 0 ∧ ctWrote.running = true ∧
    ctWrote.writesWait 0 (ctWrote.plain 0).next = false ∧ ctWrote.breakMatch 0 ct true = false ∧ ((go (.cmpTableSlotWaitEnd 0) ctWrote).plain 0).fetched = none := by
  decide +kernel

/-- A SNAPSHOT of tiers 0 and 2. -/
def sn : Words := words 16 [(0, 0x127), (2, 1), (4, 5)]
theorem test_at_snapshot : AtCommand (atCmd run0 sn) 0 0 sn 0x27 := by constructor <;> decide +kernel
theorem test_snapshot : hdrReserved sn = false ∧ anyBits sn [(4, 0xFFFFFFF8)] = false ∧ anyWords sn 5 16 = false ∧ pccHdrBad sn 1 = false ∧
    bits (wordAt sn 4) 2 0 ≠ 0 ∧ ((go (.snapshot 0) (atCmd run0 sn)).ctx 0).snap = 5 := by decide +kernel

/-- A STEP stream of 256 bytes at 0x8000 whose second command is a MATMUL. -/
def fed : State := ((put run0 0x8040 (bytesOf mm)).setCtx 0 { run0.ctx 0 with streams := [⟨true, 0, 0x8000, 256⟩] }).setPlain 0
  { Plain.reset with pcc := .issuing, pos := 64 }
theorem test_fetch : fed.owner 0 = some 0 ∧ fed.running = true ∧ fed.barred 0 0 = false ∧ (fed.plain 0).pcc = .issuing ∧ (fed.plain 0).hold = .none ∧
    (fed.plain 0).fetched = none ∧ (fed.plain 0).prologue = false ∧ fed.streamOf 0 true = some ⟨true, 0, 0x8000, 256⟩ ∧
    hdrLen (wordsOf 16 (fed.read 0x8040 64)) = 2 ∧ fed.readFault 0 [(0x8040, 64)] = none ∧ fed.readFault 0 [(0x8040, 128)] = none ∧
    typeKnown (hdrType (wordsOf 32 (fed.read 0x8040 128))) = true ∧ ((go (.streamFetchEnd 0) fed).plain 0).fetched = some mm := by decide +kernel

/-- The last command of a STEP stream, with plain 1 of the same context not there yet, and there. -/
def se : Words := words 16 [(0, 0x122), (2, 1)]
def ends : State := (regs run0 [(0x59004, 0x80000000)]).setCtx 0 { run0.ctx 0 with streams := [⟨true, 0, 0x8000, 64⟩, ⟨true, 1, 0x8000, 64⟩], step := 6, stepsDone := 6 }
def endsAt : State := atCmd ends se
def endsLast (count : W32) (pause : Bool) : State :=
  (endsAt.setCtx 0 { endsAt.ctx 0 with stepCount := count, pause := pause }).setPlain 1 { Plain.reset with pcc := .stepEnd }
theorem test_at_end : AtCommand endsAt 0 0 se 0x22 := by constructor <;> decide +kernel
theorem test_end_waits : endsAt.stepEndCheck 0 se = none ∧ endsAt.settled 0 = true ∧ 1 ∈ endsAt.plainsOf 0 ∧ (endsAt.plain 1).pcc ≠ .stepEnd ∧
    ((go (.stepEnd 0) endsAt).plain 0).pcc = .stepEnd ∧ ((go (.stepEnd 0) endsAt).ctx 0).step = 6 := by decide +kernel
theorem test_at_last : AtCommand (endsLast 7 true) 0 0 se 0x22 := by constructor <;> decide +kernel
theorem test_end_last : (endsLast 7 true).stepEndCheck 0 se = none ∧ (endsLast 7 true).settled 0 = true ∧
    (∀ q ∈ (endsLast 7 true).plainsOf 0, q ≠ 0 → ((endsLast 7 true).plain q).pcc = .stepEnd) ∧ ((endsLast 7 true).ctx 0).st = .running ∧
    (endsLast 7 true).ckp.phase = .idle ∧ ((endsLast 7 true).ctx 0).snap = 0 ∧ ((endsLast 7 true).ctx 0).verify = none ∧
    ((endsLast 7 true).ctx 0).fwNext = none ∧ ((endsLast 7 true).ctx 0).pending = none ∧ bit ((endsLast 7 true).reg 0xA0208) 31 = false ∧
    bit ((endsLast 7 true).reg 0x98040) 31 = false := by decide +kernel
theorem test_end_states : ((go (.stepEnd 0) (endsLast 7 true)).ctx 0).st = .done ∧ ((go (.stepEnd 0) (endsLast 8 true)).ctx 0).st = .paused ∧
    ((go (.stepEnd 0) (endsLast 0 false)).ctx 0).st = .running ∧ ((go (.stepEnd 0) (endsLast 0 false)).ctx 0).step = 7 ∧
    ((go (.stepEnd 0) (endsLast 0 false)).plain 1).pcc = .issuing := by decide +kernel

/-! ### Cores, DMA and COLL -/

/-- A predictive MATMUL whose one block was skipped: its maps lie at 0x40000 and 0x40040. -/
def mmSpec1 : Words := (mm.set 4 0x10401).set 14 0x40000
def specState (st : RunState) : State := run0.setPlain 0 { Plain.reset with issued := [⟨0, mmSpec1, 0, 0, false, [⟨0, st, List.replicate 12 0, [0]⟩], []⟩] }
def specIssued (st : RunState) : Issued := ⟨0, mmSpec1, 0, 0, false, [⟨0, st, List.replicate 12 0, [0]⟩], []⟩
theorem test_spec_check : (specState .started).runIn 0 0 .started = some (specIssued .started, ⟨0, .started, List.replicate 12 0, [0]⟩) ∧
    (specState .started).owner 0 = some 0 ∧ (specState .started).running = true ∧ hdrType mmSpec1 = 0x01 ∧
    (mmOf mmSpec1).base + (mmOf mmSpec1).mt * (mmOf mmSpec1).nt ≤ tileLimit (mmOf mmSpec1).dest ∧
    (specState .started).effFault 0 ((specState .started).mmCheck 0 0 (rankOf mmSpec1 0) mmSpec1 [] [0] (List.replicate 12 0)) = none := by decide +kernel
def specBits : State := put (specState .checked) 0x40040 [0xFF]
theorem test_spec_commit : specBits.runIn 0 0 .checked = some (specIssued .checked, ⟨0, .checked, List.replicate 12 0, [0]⟩) ∧
    (specIssued .checked).allChecked = true ∧ specBits.owner 0 = some 0 ∧ specBits.running = true ∧ specBits.writeFault 0 (specBits.mmCommit (rankOf mmSpec1 0) mmSpec1) = none ∧
    (go (.specCommit 0 0) specBits).byte 0x40000 = 1 := by decide +kernel
theorem test_spec_inv : Inv specBits := ⟨by decide +kernel, by decide +kernel, by decide, by decide, by decide +kernel, by decide +kernel, by decide, trivial⟩

/-- A NORM_FWD over two cores, 64 columns each, one row. -/
def nm : Words := words 64 [(0, 0x00030406), (2, 3), (5, 1), (9, 0x1000), (16, 0x10000), (18, 1), (19, 128), (20, 1), (21, 2), (24, 0x8000), (26, 1), (27, 128),
  (28, 0x11), (29, 2), (48, 0x20000), (50, 1), (51, 2), (52, 0x10), (53, 1)]
def nmIssued : Issued := ⟨4, nm, 0, 0, false, [⟨0, .started, [], []⟩, ⟨1, .started, [], []⟩], []⟩
def nmState : State := run0.setPlain 0 { Plain.reset with issued := [nmIssued] }
theorem test_exchange : (nmState.plain 0).issued.find? (fun j => j.id = 4) = some nmIssued ∧ nmState.owner 0 = some 0 ∧ nmState.running = true ∧
    exchanges nmIssued = true ∧ (∀ r ∈ nmIssued.runs, r.st = .started) ∧
    (∀ r ∈ nmIssued.runs, nmState.effFault 0 (nmState.nmFinish 0 r.pos (rankOf nm r.pos) 2 (coreOf nm 0) nm []) = none) := by
  decide +kernel

/-- A MATMUL that is done, with DONE_EN for object 4096. -/
def mmDone : Issued := ⟨3, mm.set 3 0x9000, 0, 0, false, [⟨0, .done, List.replicate 12 0, []⟩], [(0, 0)]⟩
def doneState : State := run0.setPlain 0 { Plain.reset with issued := [mmDone] }
theorem test_tile_end : (doneState.plain 0).issued.find? (fun j => j.id = 3) = some mmDone ∧ doneState.owner 0 = some 0 ∧ doneState.running = true ∧
    (∀ r ∈ mmDone.runs, r.st = .done) ∧ doneState.writesWait 0 3 = false ∧ bit (doneState.reg 0xA0208) 31 = false ∧
    doneState.breakMatch 0 mmDone.words true = false ∧ (go (.tileCmdEnd 0 3) doneState).obj 4096 = 1 ∧
    ((go (.tileCmdEnd 0 3) doneState).plain 0).issued = [] := by decide +kernel

def dmJob : Job := ⟨2, dm, 0, 128, false, false, false, .queued, [], [], false⟩
def dmState : State := (put run0 0x3000 [1, 2, 3]).setPlain 0 { Plain.reset with jobs := [dmJob] }
theorem test_dma : (dmState.plain 0).jobs.find? (fun j => j.id = 2 && ! j.coll) = some dmJob ∧ dmState.owner 0 = some 0 ∧ dmState.running = true ∧
    dmState.jobsBefore 0 2 = true ∧ (∀ q < 16, dmState.footBusy 0 q 2 (dmaFoot dm q) = false) ∧ dmState.dmaFault 0 (dmOf dm) = none ∧ (dmOf dm).mode = 1 ∧
    (dmOf dm).src.field = false ∧ (dmOf dm).dst.field = false ∧ (dmOf dm).remote = false ∧ dmState.cowActive = false ∧
    dmState.packetsOut 0 2 = false ∧ bit (dmState.reg 0x98040) 31 = false ∧ (go (.dmaEnd 0 ⟨2, ⟨0, false⟩⟩) dmState).read 0x5000 4 = [1, 2, 3, 0] ∧
    (go (.dmaEnd 0 ⟨2, ⟨0, false⟩⟩) dmState).obj 4096 = 1 ∧ ((go (.dmaEnd 0 ⟨2, ⟨0, false⟩⟩) dmState).plain 0).jobs = [] := by decide +kernel

/-- Ranks 0 and 1 are devices 5 and 8; object 4 is the FREE object, 3 the ARRIVE object. -/
def clJob (ws : Words) (ph : CollPhase) : Job := ⟨2, ws, 0, 128, false, true, ph != .queued, ph, if ph = .queued then [] else [5, 8], if ph = .queued then [] else [0, 3], false⟩
def clState (ws : Words) (ph : CollPhase) (o : Nat) (v : W32) : State :=
  ((put (routed run0) 0x8000 [5, 0, 8, 0]).setObj o v).setPlain 0 { Plain.reset with jobs := [clJob ws ph] }
theorem test_coll_table : ((clState cl .queued 4 0).plain 0).jobs.find? (fun j => j.id = 2 && j.coll && j.phase = .queued) = some (clJob cl .queued) ∧
    (clState cl .queued 4 0).running = true ∧ (clState cl .queued 4 0).jobsBefore 0 2 = true ∧
    (clState cl .queued 4 0).readFault 0 [((clOf cl).ranks, 2 * (clOf cl).n)] = none ∧
    (List.range (clOf cl).n).map (fun r => leNat ((clState cl .queued 4 0).read ((clOf cl).ranks + 2 * r) 2)) = [5, 8] ∧
    (clState cl .queued 4 0).isSelf 5 = true ∧ (clState cl .queued 4 0).reachable 8 = true ∧
    reached ((clState cl .queued 4 0).obj (clOf cl).free) ((clOf cl).freeTarget 0) = true ∧
    (((go (.collRankTableRead 0 2) (clState cl .queued 4 0)).plain 0).jobs.map (·.phase)) = [.free] := by decide +kernel
/-- The same as a REDUCE_SCATTER and as an ALL_REDUCE of FP32, with staging at 0x10000. -/
def rs : Words := (cl.set 4 0x42001000).set 20 0x10000
def ar : Words := (cl.set 4 0x02001000).set 20 0x10000
theorem test_coll_free (ws : Words) (h : ws ∈ [cl, rs, ar]) : (clState ws .free 4 0).collMet (clJob ws .free) = true ∧
    ((clState ws .free 4 0).plain 0).jobs.find? (fun j => j.id = 2 && j.phase = .free) = some (clJob ws .free) ∧
    (∀ r < (clOf ws).n, (clState ws .free 4 0).refused (some 0) (if (clOf ws).op = 2 then (clOf ws).src else (clOf ws).src + r * (clOf ws).shard)
      (clOf ws).shard false = none) ∧ (clState ws .free 4 0).refused (some 0) ((clOf ws).dst + (clOf ws).rank * (clOf ws).shard) (clOf ws).shard true = none ∧
    (clOf ws).shard ≠ 0 ∧ ahead ((clState ws .free 4 0).obj (clOf ws).arrive) ((clOf ws).arriveTarget 0 0) = true ∧
    (((go (.collFreeMet 0 2) (clState ws .free 4 0)).plain 0).jobs.map (·.phase)) = [.arrive] := by
  simp only [List.mem_cons, List.mem_nil_iff, or_false] at h
  rcases h with rfl | rfl | rfl <;> decide +kernel
theorem test_coll_inv : Inv (clState cl .free 4 0) := ⟨by decide +kernel, by decide +kernel, by decide +kernel, by decide, by decide +kernel, by decide +kernel, by decide, trivial⟩
/-- One arrival has been counted, and the tag of rank 1 is there, of phase 0 and of phase 1. -/
def clTagged (ws : Words) (ph : CollPhase) : State :=
  let d := clOf ws
  put (put (clState ws ph 3 (if ph = .second then 2 else 1)) (d.tags + 64) (collTag (d.ev 0) 0 1 0)) (d.tags + 192) (collTag (d.ev 0) 0 1 1)
theorem test_coll_arrive (ws : Words) (h : ws ∈ [cl, rs, ar]) : (clTagged ws .arrive).collMet (clJob ws .arrive) = true ∧
    ((clTagged ws .arrive).plain 0).jobs.find? (fun j => j.id = 2 && j.phase = .arrive) = some (clJob ws .arrive) ∧
    (clTagged ws .arrive).checkTags 0 (clJob ws .arrive) 0 = none ∧
    (clTagged ws .arrive).readFault 0 ((List.range (clOf ws).n).map (fun r =>
      (if r = (clOf ws).rank then (clOf ws).src + r * (clOf ws).shard else (clOf ws).stage + r * (clOf ws).shard, (clOf ws).shard))) = none ∧
    (clTagged ws .arrive).refused (some 0) (clOf ws).dst (clOf ws).outBytes true = none ∧
    (clTagged ws .arrive).refused (some 0) (clOf ws).dst (clOf ws).outBytes false = none ∧
    ahead ((clTagged ws .arrive).obj 3) ((clOf ws).arriveTarget 0 1) = true ∧
    (((go (.collArriveMet 0 2) (clTagged ws .arrive)).plain 0).jobs.map (·.phase)) = [if ws = ar then .second else .last] := by
  simp only [List.mem_cons, List.mem_nil_iff, or_false] at h
  rcases h with rfl | rfl | rfl <;> decide +kernel
theorem test_coll_second : (clTagged ar .second).collMet (clJob ar .second) = true ∧ (clTagged ar .second).checkTags 0 (clJob ar .second) 1 = none ∧
    ((clTagged ar .second).plain 0).jobs.find? (fun j => j.id = 2 && j.phase = .second) = some (clJob ar .second) ∧
    (go (.collPhase1Met 0 2) (clTagged ar .second)).obj 4096 = 1 ∧
    (((go (.collPhase1Met 0 2) (clTagged ar .second)).plain 0).jobs.map (·.phase)) = [.last] := by decide +kernel
theorem test_coll_end : ((clState cl .last 4 0).plain 0).jobs.find? (fun j => j.id = 2 && j.phase = .last) = some (clJob cl .last) ∧
    (clState cl .last 4 0).running = true ∧ (clState cl .last 4 0).packetsOut 0 2 = false ∧ (clState cl .last 4 0).writesWait 0 2 = false ∧
    bit ((clState cl .last 4 0).reg 0x98040) 31 = false ∧ ((go (.collEnd 0 2) (clState cl .last 4 0)).plain 0).jobs = [] := by decide +kernel

/-- The FREE object of the COLL is one behind, and the wait limit is 100. -/
def clLimit : State := regs (clState cl .free 4 0xFFFFFFFF#32) [(0x58008, 0x640000)]
def clBehind : State := clLimit.setPlain 0 { clLimit.plain 0 with pcc := .issuing }
theorem test_coll_timeout : clBehind.owner 0 = some 0 ∧ clBehind.running = true ∧ clBehind.waitLimit 0 ≠ 0 ∧ (clBehind.plain 0).pcc = .issuing ∧
    (clBehind.plain 0).jobs.find? (fun j => j.id = 2) = some (clJob cl .free) ∧ clBehind.collWaits (clJob cl .free) = some 4 ∧
    bit (clBehind.reg (offPln 0 8)) 31 = false ∧ (go (.syncTimeout ⟨0, some 2⟩) clBehind).reg (offPln 0 0xC) = 5#32 := by decide +kernel

/-! ### Links -/

/-- Packets of device 8 for this one: a WRITE of 64 bytes to 0x3000 with run tag 7, one with run tag 9, a COLL_WRITE, a CKPT write, signals, a STOP. -/
def pWrite : Packet := packet 1 1 5 8 0x70000 0 0x00110040 0x3000 0 0 (List.replicate 64 0xAB)
def pAlien : Packet := packet 1 1 5 8 0x90000 0 0x00110040 0x3000 0 0 (List.replicate 64 0xAB)
def pColl : Packet := packet 6 1 5 8 0x70000 0 0x00120040 0x3000 0 0 (List.replicate 64 0xAC)
def pCkpt : Packet := packet 9 3 5 8 0 0 0x00130040 0x200000 0 0 (List.replicate 64 0xAD)
def pSignal : Packet := packet 4 0 5 8 0x70000 0 0x00140000 15 9 0 []
def pCollSignal : Packet := packet 7 0 5 8 0x70000 0 0x00140000 15 9 0 []
def pLost : Packet := packet 4 0 5 8 0x70000 0 0x00140000 16 9 0 []
def pStop : Packet := packet 8 0 5 8 0x70000 0 0 0 0 0 []
def net : State := linkUp run0
/-- The same, and device 8 is hosted at 0x200000 with 2 MiB. -/
def hostNet : State := regs net [(0x88034, 0x200000), (0x8803C, 0x80001008)]
theorem test_arrives_write : Arrives net 0 pWrite 1 ∧ Arrives net 0 pAlien 1 := ⟨by constructor <;> decide +kernel, by constructor <;> decide +kernel⟩
theorem test_arrives_coll : Arrives net 0 pColl 6 ∧ Arrives hostNet 0 pCkpt 9 := ⟨by constructor <;> decide +kernel, by constructor <;> decide +kernel⟩
theorem test_arrives_signal : Arrives net 0 pSignal 4 ∧ Arrives net 0 pCollSignal 7 ∧ Arrives net 0 pLost 4 :=
  ⟨by constructor <;> decide +kernel, by constructor <;> decide +kernel, by constructor <;> decide +kernel⟩
theorem test_nothing_held : NothingHeld net ∧ NothingHeld hostNet := ⟨by constructor <;> decide +kernel, by constructor <;> decide +kernel⟩
theorem test_write_applied : (∃ m < 16, net.remoteOk m pWrite = true) ∧ (go (.rxWrite 0 pWrite) net).byte 0x303F = 0xAB ∧
    (go (.rxWrite 0 pWrite) net).txWait.length = 1 := ⟨⟨0, by decide +kernel⟩, by decide +kernel⟩
theorem test_write_refused : (∀ m < 16, net.remoteOk m pAlien = false) ∧ (go (.rxWrite 0 pAlien) net).reg 0x20018 = 1 := by decide +kernel
theorem test_coll_write : net.tagged pColl = some 0 ∧ (net.ctx 0).epoch.toNat = pColl.epoch ∧ net.remoteOk 0 pColl = true ∧
    (go (.rxCollWrite 0 pColl) net).byte 0x3000 = 0xAC := by decide +kernel
theorem test_ckpt_write : bits (pCkpt.w 6) 1 0 = 0 ∧ hostNet.hostedOk pCkpt pCkpt.data.length true = true ∧
    (go (.rxCkpt 0 pCkpt) hostNet).byte 0x200000 = 0xAD := by decide +kernel
/-- The same COLL_WRITE to memory that its context does not own. -/
def pCollFar : Packet := packet 6 1 5 8 0x70000 0 0x00120040 0x3000 1 0 (List.replicate 64 0xAC)
theorem test_coll_far : Arrives net 0 pCollFar 6 := by constructor <;> decide +kernel
theorem test_coll_refused : net.tagged pCollFar = some 0 ∧ (net.ctx 0).epoch.toNat = pCollFar.epoch ∧ net.remoteOk 0 pCollFar = false := by decide +kernel
theorem test_remote_signal : net.globalOwner pSignal = some 0 ∧ (net.ctx 0).runTag.toNat = pSignal.runTag ∧ net.globalOwner pLost = none ∧
    net.globalOwner pCollSignal = some 0 ∧ (net.ctx 0).epoch.toNat = pCollSignal.epoch ∧ (go (.rxSignal 0 pSignal) net).obj 15 = 9 ∧
    (go (.rxCollSignal 0 pCollSignal) net).obj 15 = 9 ∧ (go (.rxSignal 0 pLost) net).reg 0x50008 = 1 := by decide +kernel

/-- The DMA of `dmJob` has sent a WRITE with REQ_ID 0x11 to device 8; a SIGNAL of a later command is held as well. -/
def held : Outst := ⟨packet 1 1 8 5 0x70000 0 0x00110040 0x3000 0 0 [], none, 6, .cmd 0 2 5 128 false false⟩
def heldSig : Outst := ⟨packet 4 0 8 5 0x70000 0 0x00210000 4 9 0 [], none, 0, .cmd 0 2 5 128 false true⟩
def waitingNet : State := { net.setPlain 0 { Plain.reset with jobs := [⟨2, dm, 0, 128, false, false, true, .queued, [], [], false⟩] } with outst := [held, heldSig] }
def pAck (ptype req reason : Nat) : Packet := packet ptype 0 5 8 0 1 (if ptype = 2 ∨ ptype = 5 then req else req * 65536 + reason * 4096) 0 0 0 []
theorem test_arrives_acks : Arrives waitingNet 0 (pAck 2 0x11 0) 2 ∧ Arrives waitingNet 0 (pAck 5 0x21 0) 5 ∧ Arrives waitingNet 0 (pAck 3 0x11 1) 3 ∧
    Arrives waitingNet 0 (pAck 3 0x11 2) 3 ∧ Arrives waitingNet 0 (pAck 10 0x21 1) 10 :=
  ⟨by constructor <;> decide +kernel, by constructor <;> decide +kernel, by constructor <;> decide +kernel, by constructor <;> decide +kernel,
   by constructor <;> decide +kernel⟩
theorem test_acks : (pAck 2 0x11 0).ackIds = [held.pk.reqId] ∧ waitingNet.heldBy 1 (pAck 2 0x11 0).src held.pk.reqId = some held ∧
    (pAck 5 0x21 0).ackIds = [heldSig.pk.reqId] ∧ waitingNet.heldBy 4 (pAck 5 0x21 0).src heldSig.pk.reqId = some heldSig ∧
    (∀ j ∈ (waitingNet.plain 0).jobs, j.id = 2 → j.coll = false) ∧ (go (.rxWriteAck 0 (pAck 2 0x11 0)) waitingNet).outst = [heldSig] ∧
    (go (.rxSignalAck 0 (pAck 5 0x21 0)) waitingNet).outst = [held] := by decide +kernel
theorem test_naks : waitingNet.heldBy 1 8 (pAck 3 0x11 1).reqId = some held ∧ (pAck 3 0x11 1).reason = 1 ∧ (pAck 3 0x11 1).src = 8 ∧
    waitingNet.heldBy 4 8 (pAck 10 0x21 1).reqId = some heldSig ∧ (pAck 10 0x21 1).reason = 1 ∧ waitingNet.owner 0 = some 0 ∧
    waitingNet.outst.find? (fun o => o.pk.reqId = 0x11) = some held ∧ (waitingNet.ctx 0).st = .running ∧ waitingNet.resetting 0 = false ∧
    waitingNet.ckp.phase = .idle ∧ bit (waitingNet.reg 0x98000) 4 = false ∧ bit (waitingNet.reg (offPln 0 8)) 31 = false ∧
    (go (.rxWriteNak 0 (pAck 3 0x11 1)) waitingNet).reg (offPln 0 8) = 0x80000403#32 ∧
    (go (.rxSignalNak 0 (pAck 10 0x21 1)) waitingNet).reg (offPln 0 8) = 0x80000A05#32 ∧
    (go (.packetSettleTimeout 0x11) waitingNet).reg (offPln 0 8) = 0x80000E03#32 := by decide +kernel
theorem test_resend : (pAck 3 0x11 2).reason = 2 ∧ held.gone = false ∧ held.fails + 1 < 8 ∧
    (go (.rxWriteNak 0 (pAck 3 0x11 2)) waitingNet).outst = [heldSig, { held with fails := 7 }] := by decide +kernel

def stopOn : State := regs net [(0x98000, 4)]
theorem test_arrives_stop : Arrives net 0 pStop 8 ∧ Arrives stopOn 0 pStop 8 := ⟨by constructor <;> decide +kernel, by constructor <;> decide +kernel⟩
theorem test_stop : bit (stopOn.reg 0x98000) 2 = true ∧ (stopOn.tagged pStop).isSome = true ∧ stopOn.dbg = .running ∧ bit (net.reg 0x98000) 2 = false ∧
    (go (.rxStop 0 pStop) stopOn).dbg = .stopped ∧ (go (.rxStop 0 pStop) net).dbg = .running ∧
    (go .d2dRetryLimit net).dbg = .scanning := by decide +kernel

/-- A control word: FSEQ 0, ACK 0xFFF, a credit of 0x1234 for VC 3, class 0. -/
def flit (failed : Nat) : FlitObs :=
  let w : W64 := 0x000FFF3123400000
  ⟨w + BitVec.ofNat 64 (ccrc w), failed, 2⟩
theorem test_flit : net.linkState 0 = 2 ∧ ccrc (flit 0).ctl = ctlField (flit 0).ctl 15 0 ∧
    BitVec.ofNat 12 (ctlField (flit 0).ctl 63 52) = (net.link 0).rxLast + 1 ∧ (net.link 0).cred.length = 8 ∧ (net.link 0).unacked < 128 ∧
    ((go (.flitReceive 0 (flit 0)) net).link 0).rxLast = 0 ∧ ((go (.flitReceive 0 (flit 0)) net).link 0).cred.getD 6 0 = 0x1234 ∧
    ((go (.flitReceive 0 (flit 3)) net).link 0).out.length = 1 ∧ (go (.flitReceive 0 (flit 3)) net).reg (offLnk 0 0x10) = 3 := by decide +kernel
/-- Link 0 has sent flits 0 to 2 and replayed the first 64 times. -/
def replays : State := net.setLink 0 { Link.reset with txNext := 3, replays := 64 }
theorem test_replay : replays.linkState 0 = 2 ∧ (replays.link 0).unacked ≠ 0 ∧ 64 ≤ (replays.link 0).replays ∧ replays.ckp.phase = .idle ∧
    bit (replays.reg 0x98000) 4 = false ∧ (go (.replayTimeout 0) replays).reg (offLnk 0 8) = 3 ∧ (go (.linkReplayLimit 0) replays).linkState 0 = 3 ∧
    (go (.linkRxLoss 0) replays).linkState 0 = 3 := by decide +kernel
/-- Col 15 is enabled and powered; link 63 trains. -/
def col : State := regs up [(0x70178, 0x80000000), (0x780F4, 1)]
def training : State := regs col [(offLnk 63 0, 0x40000000), (offLnk 63 4, 1)]
theorem test_train : col.ready = true ∧ col.memOn = true ∧ col.colReady 15 = true ∧ (go (.lnkCtrlEn 63 true) col).linkState 63 = 1 ∧
    (go (.lnkCtrlEn 63 true) up).linkState 63 = 0 ∧ (go (.lnkCtrlEn 63 false) training).linkState 63 = 0 ∧
    training.linkState 63 = 1 ∧ training.txWait = [] ∧ training.outst = [] ∧ (go (.linkTrained 63 (.up (some 8))) training).linkState 63 = 2 ∧
    (go (.linkTrained 63 .badModule) training).linkState 63 = 0 ∧ (go (.colModPwr 15 false) training).linkState 63 = 0 ∧
    bit ((go (.colModReset 15 none) col).reg 0x780F4) 1 = true ∧
    (go (.colModReset 15 (some ⟨true, 3, 40, false⟩)) col).reg 0x780F0 = 0xB8002800#32 := by decide +kernel
theorem test_reshard : run0.ready = true ∧ run0.reaches 0 = true ∧ run0.reaches 16 = true ∧ run0.inFlight 0 = 0 ∧ (run0.ctx 0).st = .running ∧ (up.ctx 0).st = .idle ∧ (clState cl .free 4 0).inFlight 0 ≠ 0 ∧
    ((go (.lnkCtxReshard 0 0 3) run0).ctx 0).pending = some 3 ∧ ((go (.lnkCtxReshard 16 0 3) up).ctx 0).epoch = 3 ∧
    ((go (.lnkCtxReshard 17 0 3) (clState cl .free 4 0)).ctx 0).busy = true := by decide +kernel

/-! ### Ring commands -/

theorem test_entry_nop (r : Fin 17) (h : r ∈ [(0 : Fin 17), 16]) : AtEntry (ringUp up r) r (entry 0 []) 0x00 [] 2 := by
  simp only [List.mem_cons, List.mem_nil_iff, or_false] at h
  rcases h with rfl | rfl <;> constructor <;> decide +kernel
def idle0 : State := ringUp (run0.setCtx 0 Ctx.reset) 0
def with0 (st : CtxState) : State := ringUp (run0.setCtx 0 { Ctx.reset with st := st, streams := [⟨false, 0, 0x8000, 64⟩] }) 0
theorem test_entry_pause : AtEntry idle0 0 (entry 3 [(2, 1)]) 0x03 [(2, 0xFFFFFFFE)] 3 := by constructor <;> decide +kernel
theorem test_pause : ((go (.pause 0 (entry 3 [(2, 1)])) idle0).ctx 0).pause = true ∧ (go (.pause 0 (entry 3 [(2, 1)])) idle0).hostTx.length = 2 := by
  decide +kernel
theorem test_entry_add : AtEntry idle0 0 (entry 5 [(2, 4111), (3, 0xFFFF)]) 0x05 [(2, 0xFFFFC000), (3, 0xFFFF0000)] 4 := by constructor <;> decide +kernel
theorem test_add : idle0.ownsObj 0 4111 = true ∧ idle0.hostWrites = false ∧ (go (.syncAdd 0 (entry 5 [(2, 4111), (3, 0xFFFF)])) idle0).obj 4111 = 0xFFFF := by
  decide +kernel
theorem test_entry_snap : AtEntry idle0 0 (entry 0x10 [(2, 6)]) 0x10 [(2, 0xFFFFFFF8)] 3 := by constructor <;> decide +kernel
theorem test_snap : ((go (.snapRequest 0 (entry 0x10 [(2, 6)])) idle0).ctx 0).snap = 6 := by decide +kernel

/-- An image at 0x100000: one plain, a STEP stream of one STEP_END, and a SYNC_INIT of object 4100 to 5 + 2 per step. Its digest is that of the SHA-512 of
FIPS 180-4. -/
def image : Bytes :=
  bytesOf (words 16 [(0, 0x4B534C54), (1, 0x10000), (2, 272), (4, 1), (5, 2), (6, 128)]) ++
  leBytes 64 0x7f965901480c570b5328a9834f282ebf07656a3e9c294222c8548bd72fc3beade4a628387eb5a5e19021a52fe2b2ebc9a7d5fe67e4d553ff9c9b16e298fb87c2 ++
  bytesOf (words 16 [(0, 2), (1, 64), (2, 192), (4, 3), (5, 16), (6, 256)]) ++ bytesOf (words 16 [(0, 0x122), (2, 1)]) ++ bytesOf [4100, 5, 2, 0]
def record : Words := entry 1 [(2, 0x00090000), (3, 0x100000), (5, 10), (6, 3), (7, 77)]
def loaded : State := put (idle0.setObj 4101 99) 0x100000 image
theorem test_entry_arm : AtEntry loaded 0 record 0x01 [] 9 := by constructor <;> decide +kernel
theorem test_image : (loaded.ctx 0).st = .idle ∧ bits (wordAt record 2) 15 0 = 0 ∧ loaded.ckp.phase = .idle ∧
    (match loaded.readImage 0 (dword record 3) with | .ok i => i.init.length | .error _ => 0) = 1 := by decide +kernel
theorem test_arm : ((go (.arm 0 record) loaded).ctx 0).st = .armed ∧ ((go (.arm 0 record) loaded).ctx 0).runTag = 9 ∧
    (go (.arm 0 record) loaded).obj 4100 = 25 ∧ (go (.arm 0 record) loaded).obj 4101 = 0 := by decide +kernel
theorem test_entry_refused : AtEntry (with0 .halted) 0 record 0x01 [] 9 ∧ ((with0 .halted).ctx 0).st ≠ .idle :=
  ⟨by constructor <;> decide +kernel, by decide +kernel⟩
theorem test_entry_start (st : CtxState) : AtEntry (with0 st) 0 (entry 2 []) 0x02 [] 2 ∧ AtEntry (with0 st) 0 (entry 4 []) 0x04 [] 2 :=
  ⟨by cases st <;> constructor <;> decide +kernel, by cases st <;> constructor <;> decide +kernel⟩
theorem test_start : (with0 .armed).running = true ∧ (with0 .armed).ready = true ∧ (with0 .armed).reaches 0 = true ∧ (with0 .armed).reaches 16 = true ∧ (with0 .armed).reaches 17 = true ∧ (with0 .armed).ckp.phase = .idle ∧
    ((go (.start 0 (entry 2 [])) (with0 .armed)).ctx 0).st = .running ∧ ((go (.start 0 (entry 2 [])) (with0 .armed)).plain 0).prologue = true ∧
    ((go (.schCtxCtrlStart 0 0 true) (with0 .paused)).plain 0).prologue = false ∧
    ((go (.start 0 (entry 2 [])) (with0 .running)).ctx 0).st = .running ∧ (go (.start 0 (entry 2 [])) (with0 .running)).log.length = 1 := by decide +kernel
theorem test_disarm : ((go (.disarm 0 (entry 4 [])) (with0 .halted)).ctx 0).st = .idle ∧ ((go (.schCtxCtrlDisarm 16 0 true) (with0 .armed)).ctx 0).pause = true ∧
    ((go (.schCtxCtrlDisarm 16 0 true) (with0 .armed)).ctx 0).st = .idle ∧ ((go (.disarm 0 (entry 4 [])) (with0 .running)).ctx 0).st = .running ∧
    ((go (.schCtxCtrlPause 17 0 true) (with0 .armed)).ctx 0).pause = true := by decide +kernel

/-- COPY of 128 bytes from host address 0x1000 to device address 0x3000, with OBJ 4096; the same to the host; one of 100 bytes. -/
def cpIn : Words := entry 6 [(2, 0x40001000), (3, 0x1000), (5, 0x3000), (7, 128)]
def cpOut : Words := entry 6 [(2, 0xC0001000), (3, 0x1000), (5, 0x3000), (7, 128)]
def cpBad : Words := entry 6 [(2, 0x40001000), (3, 0x1000), (5, 0x3000), (7, 100)]
theorem test_entry_copy (e : Words) (h : e ∈ [cpIn, cpOut, cpBad]) : AtEntry idle0 0 e 0x06 [(2, 0x3FFFC000)] 8 := by
  simp only [List.mem_cons, List.mem_nil_iff, or_false] at h
  rcases h with rfl | rfl | rfl <;> constructor <;> decide +kernel
theorem test_copy : ∀ e ∈ [cpIn, cpOut], cpHost e % 64 = 0 ∧ cpDev e % 64 = 0 ∧ cpBytes e % 64 = 0 ∧ cpBytes e ≠ 0 ∧ idle0.objBad 0 e = false ∧
    idle0.refused (pairCtx 0) (cpDev e) (cpBytes e) (! cpDir e) = none := by decide +kernel
theorem test_copy_bad : cpBytes cpBad % 64 ≠ 0 ∧ (go (.copy 0 cpBad) idle0).hostTx.length = 2 := by decide +kernel
def copying (e : Words) : State := (put idle0 0x3000 [7]).setPair 0 { idle0.pair 0 with cur := some e }
def hostData : Bytes := List.replicate 128 0x5A
theorem test_copy_end : ∀ e ∈ [cpIn, cpOut], ((copying e).pair 0).cur = some e ∧ entryOp e = 0x06 ∧ ((copying e).pair 0).copied = none ∧
    ((copying e).pair 0).old = false ∧ ((copying e).pair 0).ovf = [] ∧ ((copying e).pair 0).lost = 0 ∧ (copying e).canPost 0 = true ∧
    (copying e).ddrFailed = false ∧ (copying e).poison = [] ∧ (copying e).cowActive = false ∧ (copying e).cow.waiting = [] ∧ (copying e).acks = [] ∧
    (copying e).win.reads = [] := by decide +kernel
theorem test_copy_in : hostData.length = cpBytes cpIn ∧ (go (.copyComplete 0 ⟨hostData, [], false⟩) (copying cpIn)).byte 0x307F = 0x5A ∧
    (go (.copyComplete 0 ⟨hostData, [], false⟩) (copying cpIn)).obj 4096 = 1 := by decide +kernel
theorem test_copy_out : (go (.copyComplete 0 ⟨[], [], false⟩) (copying cpOut)).hostTx.length = 4 ∧
    (go (.copyComplete 0 ⟨[], [], false⟩) (copying cpOut)).hostTx.head? = some (.write 0x1000 (7 :: List.replicate 63 0) false) := by decide +kernel

/-- Doorbells: an entry that is not there yet; a count past the ring of one entry. -/
def bell (cxl : Bool) : State := if cxl then idle0.setReg 0x10004 0x40000000 else idle0
theorem test_bell (cxl : Bool) : (bell cxl).cxl = cxl ∧ (bell cxl).inD0 = true ∧ ((bell cxl).pair 0).st = .active ∧ ((bell cxl).pair 0).cur = none ∧
    (1#32 - ((bell cxl).pair 0).sqHead).toNat ≤ 2 ^ (bell cxl).sqLog 0 ∧ (((bell cxl).pair 0).cqTail - 0#32).toNat ≤ 2 ^ (bell cxl).cqLog 0 ∧
    (bell cxl).entryValid 0 [] = false ∧ 2 ^ (bell cxl).sqLog 0 < (100000#32 - ((bell cxl).pair 0).sqHead).toNat := by cases cxl <;> decide +kernel
theorem test_bell_read : ((go (.doorbellPoll 0 ⟨1, 0, []⟩) (bell false)).pair 0).stale = true ∧
    ((go (.doorbellLineLost 0 ⟨1, 0, []⟩) (bell true)).pair 0).stale = true ∧
    ((go (.doorbellPoll 0 ⟨100000, 0, []⟩) (bell false)).pair 0).st = .stopped := by decide +kernel
def staleBell : State := idle0.setPair 0 { idle0.pair 0 with stale := true }
theorem test_stale : staleBell.readsEntry 0 = true ∧ idle0.readsEntry 0 = true ∧ (idle0.pair 0).stale = false ∧ (staleBell.pair 0).stale = true ∧ staleBell.entryValid 0 [] = false ∧
    staleBell.entryValid 0 (entry 0x13 []) = true ∧ entryOp (entry 0x13 []) = 0x13 ∧ ((go (.staleReread 0 []) staleBell).pair 0).stale = true ∧
    ((go (.staleReread 0 (entry 0x13 [])) staleBell).pair 0).stale = false ∧ (go (.staleReread 0 []) staleBell).reg (offHif 0 0x2C) = 1 ∧
    ((go (.descStale 0 []) staleBell).pair 0).code = 0x0201 := by decide +kernel
def stopped16 : State := up.setPair 16 { Pair.reset with st := .stopped, en := true }
theorem test_pairs : up.ready = true ∧ up.reaches 0 = true ∧ up.reaches 16 = true ∧ up.reaches 17 = true ∧ (idle0.pair 0).cur = none ∧ (up.pair 16).st = .disabled ∧ ((go (.hifPairCtrlEn 16 16 true) up).pair 16).st = .active ∧
    ((go (.hifPairCtrlEn 0 0 false) idle0).pair 0).st = .disabled ∧ (stopped16.pair 16).cur = none ∧
    ((go (.hifPairCtrlDetach 17 16) stopped16).pair 16).st = .detached ∧ ((go (.hostReadTimeout 0) idle0).pair 0).code = 0x0207 ∧
    ((go .pcieLinkDown idle0).pair 0).st = .detached ∧ ((go .functionLevelReset idle0).pair 0).st = .disabled ∧
    ((go .perst idle0).pair 0).code = 0x0207 ∧ (go (.pcieLinkUp ⟨true, true, true, 16, 6⟩) up).reg 0x10004 = 0xF0100600 := by decide +kernel
/-- One completion is queued and 3 were lost; an interrupt is held back. -/
def overflown (lost : BitVec 16) : State := idle0.setPair 0 { idle0.pair 0 with ovf := [words 16 [(0, 1)]], lost := lost }
theorem test_overflow (lost : BitVec 16) (h : lost ∈ [0#16, 3#16]) : ((overflown lost).pair 0).ovf = [words 16 [(0, 1)]] ∧ (overflown lost).canPost 0 = true ∧
    (((overflown lost).pair 0).cqTail + 1 - ((overflown lost).pair 0).cqHead).toNat < 2 ^ (overflown lost).cqLog 0 ∧
    ((go (.overflowQueuePost 0) (overflown lost)).pair 0).lost = 0 ∧
    ((go (.overflowQueuePost 0) (overflown lost)).pair 0).cqTail = if lost = 0 then 1 else 2 := by
  simp only [List.mem_cons, List.mem_nil_iff, or_false] at h
  rcases h with rfl | rfl <;> decide +kernel
def heldIrq (on : Bool) : State :=
  { ((idle0.setReg (offHif 0 0x18) 0x80000000).setReg 0xE000C 0).setPair 0 { idle0.pair 0 with irq := true, cqTail := 1 } with
    pci := if on then [(4, 0x00100002#32), (0x70, 0x80110011#32)] else [(4, 0x00100002#32)] }
/-- The same with vector 0 masked. -/
def maskedIrq : State := (heldIrq true).setReg 0xE000C 1
theorem test_coalesce : (∀ on : Bool, ((heldIrq on).pair 0).irq = true ∧ (heldIrq on).msixOn = on ∧ (heldIrq on).msixMasked 0 = false) ∧
    (maskedIrq.pair 0).irq = true ∧ maskedIrq.msixMasked 0 = true ∧ (go (.irqCoalesce 0) (heldIrq true)).hostTx = [.msix 0] ∧
    (go (.irqCoalesce 0) (heldIrq false)).hostTx = [] ∧ bit ((go (.irqCoalesce 0) maskedIrq).reg 0xE8000) 0 = true := by decide +kernel
/-- Configuration space before P1 and in READY: a read of the command and status word, a write of BAR0, and Initiate Function-Level Reset. -/
theorem test_config : up.board.power = true ∧ up.phase = 5 ∧ up.reg 0xE8000 = 0 ∧ (pciRow 0x10).isSome = true ∧ (pciRow 0x58).isSome = true ∧
    (go (.configurationRequest (.read 4)) State.reset).hostTx = [.retry] ∧ (go (.configurationRequest (.read 6)) up).hostTx = [.configData 6 0x00100002] ∧
    (go (.configurationRequest (.write 0x10 0xFFFFFFFF 0xF)) up).cfg 0x10 = 0xFFE00004 ∧
    ((go (.configurationRequest (.write 0x58 0x8000 0xF)) idle0).pair 0).st = .disabled := by decide +kernel

/-! ### The window, NET_XFER and Ethernet -/

/-- The window lies at 0x400000, without coherence and with it. -/
def win (en : Bool) : State := put (regs run0 [(0x18000, b2n en), (0x18008, 0x400000)]) 0x400010 [9]
def winCxl : State := (win true).setReg 0x10004 0xD0000000
/-- The HDM decoder is committed and enabled. -/
def winHdm : State := regs winCxl [(0xD1204, 2), (0xD1220, 0x600)]
theorem test_window : (win true).win.moving = none ∧ (win true).ready = true ∧ bit ((win true).reg 0x18000) 0 = true ∧ (win true).coherent = false ∧
    (win true).winReached .bar4 = true ∧ (win false).winReached .bar4 = true ∧ winHdm.winReached .hdm = true ∧ winHdm.winReached .bar4 = true ∧
    winHdm.coherent = true ∧ bit (winHdm.reg 0x18000) 1 = false ∧ winHdm.ready = true ∧ bit (winHdm.reg 0x18000) 0 = true ∧ winHdm.poison = [] ∧
    (win true).ddrFailed = false ∧ (win true).poison = [] ∧ bit ((win false).reg 0x18000) 0 = false ∧ (win false).win.moving = none ∧
    (go (.winRead ⟨.bar4, 0x1FFFFFFC⟩ 4) (win true)).hostTx = [.winData 0x1FFFFFFC [0, 0, 0, 0] []] ∧
    (go (.winRead ⟨.hdm, 16⟩ 2) winHdm).hostTx = [.winData 16 [9, 0] []] ∧ (go (.winRead ⟨.bar4, 16⟩ 2) winHdm).hostTx = [.unsupported 16] ∧
    (go (.winRead ⟨.bar4, 16⟩ 2) (win true)).hostTx = [.winData 16 [9, 0] []] ∧ (go (.winRead ⟨.bar4, 16⟩ 2) (win false)).hostTx = [.winData 16 [0, 0] []] ∧
    (go (.winWrite ⟨.bar4, 16⟩ [1, 2]) (win true)).byte 0x400011 = 2 ∧ (go (.winWrite ⟨.bar4, 16⟩ [1, 2]) (win false)).log.length = 1 := by decide +kernel
theorem test_window_held : NothingHeld (win true) ∧ NothingHeld (win false) ∧ NothingHeld winHdm :=
  ⟨by constructor <;> decide +kernel, by constructor <;> decide +kernel, by constructor <;> decide +kernel⟩
def heldBase (s : State) : State := { s with held := [(0x18008, some 0x00A00001#32)] }
theorem test_window_moves : (heldBase (win true)).mapped 0x100A00000 0x20000000 = true ∧ (heldBase winCxl).coherent = true ∧
    (heldBase (win true)).memOn = true ∧ (heldBase (win true)).ready = true ∧ (heldBase winCxl).memOn = true ∧ (heldBase (win true)).win.wait = [] ∧
    (heldBase (win true)).mapped 0x30000A00000 0x20000000 = false ∧ (go (.winMove 1) (heldBase (win true))).pairVal 0x18008 = 0x100A00000 ∧
    (go (.winMove 1) (heldBase winCxl)).win.moving = some 0x100A00000 ∧ (go (.winMove 0x300) (heldBase (win true))).log.length = 1 := by decide +kernel
/-- The window is moving, and one of its lines is dirty in the host. -/
def winMoving : State := go (.winMove 1) (heldBase winCxl)
theorem test_window_moving : NothingHeld winMoving := by constructor <;> decide +kernel
theorem test_window_moved : winMoving.win.moving = some 0x100A00000 ∧ winMoving.win.wait = [] ∧ winMoving.ddrFailed = false ∧
    (go (.backInvalidationDone (.move [])) winMoving).pairVal 0x18008 = 0x100A00000 ∧
    (go (.backInvalidationDone (.move [(64, [1, 2])])) winMoving).byte 0x400041 = 2 := by decide +kernel
def biasWait : State := go (.winBiasSet 7 0x80000000) winCxl
theorem test_bias : winCxl.ready = true ∧ winCxl.memOn = true ∧ winCxl.coherent = true ∧ winCxl.biasDevice 255 = false ∧ winCxl.win.pages = [] ∧
    (win true).ready = true ∧ (win true).memOn = true ∧ (go (.winBiasSet 7 0x80000000) (win true)).biasDevice 255 = true ∧
    255 ∈ biasWait.win.pages ∧ (go (.backInvalidationDone (.biasPage 255 [])) biasWait).biasDevice 255 = true ∧
    (go (.backInvalidationDone (.biasPage 255 [(0x1FE00000, [6])])) biasWait).byte 0x20200000 = 6 := by decide +kernel

/-- Port 0 is up; queue pair 511 is READY for context 0 with an MTU of 1,024; region 4095 admits writes and reads of 4 KiB at 0x3000. -/
def eth : State :=
  { regs (ringUp run0 0) [(0x80010, 0xFF01), (0x80014, 0x80000000)] with
    qps := [(511, words 12 [(0, 0x40600000), (2, 0xFFFFFF), (3, 0xFFFFFF)])], mrs := [(4095, words 5 [(0, 0xE0000042), (1, 0x3000), (3, 0x1000)])],
    gids := [(0, [0x0A000001#32, 0xFFFF#32, 0, 0]), (15, [1#32, 0, 0, 0xFE800000#32])] }
def nxWrite : Words := entry 7 [(2, 0xC0001000), (3, 511), (4, 5), (5, 0x9000), (7, 0x3000), (9, 2048)]
def nxRead : Words := entry 7 [(2, 0x40001000), (3, 511), (4, 5), (5, 0x9000), (7, 0x3000), (9, 2048)]
def nxOther : Words := entry 7 [(2, 0x40001000), (3, 510), (4, 5), (5, 0x9000), (7, 0x3000), (9, 2048)]
theorem test_entry_net (e : Words) (h : e ∈ [nxWrite, nxRead, nxOther]) : AtEntry eth 0 e 0x07 [(2, 0x3FFFC000), (3, 0xFF000000)] 10 := by
  simp only [List.mem_cons, List.mem_nil_iff, or_false] at h
  rcases h with rfl | rfl | rfl <;> constructor <;> decide +kernel
/-- The priority of the pair's frames is paused. -/
def paused : State := { eth with pfc := [(0, 1)] }
theorem test_net : ∀ e ∈ [nxWrite, nxRead], nxDev e % 64 = 0 ∧ nxBytes e % 64 = 0 ∧ nxBytes e ≠ 0 ∧ nxBytes e ≤ 0x80000000 ∧ eth.objBad 0 e = false ∧
    eth.qpOk 0 (nxQp e) = true ∧ eth.refused (pairCtx 0) (nxDev e) (nxBytes e) (! cpDir e) = none ∧ eth.poisoned (nxDev e) (nxBytes e) = false ∧
    eth.portUp (eth.qpPort (nxQp e)) = true ∧ ((go (.netXfer 0 e) eth).qpWord 511 2) = 1 ∧ (go (.netXfer 0 e) eth).ethTx.length = 1 ∧
    (go (.netXfer 0 e) paused).ethTx = [] ∧ (go (.netXfer 0 e) paused).ethWait.length = 1 := by decide +kernel
theorem test_eth_ready : EthReady eth 511 ∧ ¬ EthReady paused 511 := ⟨⟨by decide +kernel, by decide +kernel⟩, fun h => absurd h.2 (by decide +kernel)⟩
theorem test_net_refused : eth.qpOk 0 (nxQp nxOther) = false ∧ eth.objBad 0 nxOther = false ∧ (go (.netXfer 0 nxOther) eth).hostTx.length = 2 := by
  decide +kernel
/-- The transfer of pair 0: open, whole, and failed. -/
def xfer (w : Bool) (done : Nat) (bad : Bool) : Xfer := ⟨some 0, w, 5, 0x9000, 0x3000, 2048, done, bad, [], 0xFFFFFF⟩
def moving (x : Xfer) (retries : Nat) : State :=
  { eth.setPair 0 { eth.pair 0 with cur := some nxRead } with qpx := [(511, ⟨[x], retries, 800000000000, none⟩)] }
theorem test_net_end : ∀ x ∈ [xfer true 2048 false, xfer true 0 true], ((moving x 0).pair 0).cur = some nxRead ∧ entryOp nxRead = 0x07 ∧
    ((moving x 0).pair 0).old = false ∧ ((moving x 0).pair 0).ovf = [] ∧ ((moving x 0).pair 0).lost = 0 ∧ (moving x 0).canPost 0 = true ∧
    (moving x 0).xferOf (nxQp nxRead) 0 = some x ∧ (x.failed = false → x.bytes ≤ x.done ∧ (moving x 0).pairWrites 0 = false) ∧
    (go (.netXferComplete 0) (moving x 0)).obj 4096 = if x.failed then 0 else 1 := by decide +kernel
def far : W32 := 0xFFF42
def due : BitVec 24 := 0xFFFFFF
theorem test_rdma : eth.portUp (eth.qpPort 511) = true ∧ eth.qpState 511 = 1 ∧ eth.mrAdmits 511 far 0x3FFC 4 true = true ∧
    due = (eth.qpWord 511 3).setWidth 24 ∧ (1 : BitVec 24) ≠ (eth.qpWord 511 3).setWidth 24 ∧ (1 - (eth.qpWord 511 3).setWidth 24 : BitVec 24).toNat < 2 ^ 23 ∧
    eth.mrAdmits 511 far 0x3FFC 4 false = true ∧ eth.refused none 0x3FFC 4 true = none ∧ eth.refused none 0x3FFC 4 false = none ∧
    eth.poisoned 0x3FFC 4 = false ∧ eth.mrAdmits 511 far 0x3FFD 4 true = false ∧ eth.ckp.phase = .idle ∧
    (go (.rdmaWriteRequest 511 far 0x3FFC [1, 2, 3, 4] ⟨due, true⟩) eth).byte 0x3FFF = 4 ∧
    (go (.rdmaWriteRequest 511 far 0x3FFC [1, 2, 3, 4] ⟨due, true⟩) eth).ethTx = [.cnp 511, .ack 511] ∧
    (go (.rdmaWriteRequest 511 far 0x3FFC [1, 2, 3, 4] ⟨1, false⟩) eth).ethTx = [.sequenceNak 511] ∧
    (go (.rdmaWriteRequest 511 far 0x3FFC [1, 2, 3, 4] ⟨due, true⟩) eth).qpWord 511 3 = 0 ∧
    (go (.rdmaReadRequest 511 far 0x3FFC 4 ⟨due, false⟩) eth).ethTx = [.readData 511 [0, 0, 0, 0]] ∧
    (go (.rdmaWriteRequest 511 far 0x3FFD [1, 2, 3, 4] ⟨due, true⟩) eth).qpState 511 = 2 := by decide +kernel
theorem test_rdma_held : NothingHeld eth ∧ NothingHeld (moving (xfer false 1024 false) 0) := ⟨by constructor <;> decide +kernel, by constructor <;> decide +kernel⟩
theorem test_response : ∀ x ∈ [xfer true 0 false, xfer false 1024 false], (moving x 0).portUp ((moving x 0).qpPort 511) = true ∧
    (moving x 0).qpState 511 = 1 ∧ ((moving x 0).qp 511).xfers = [x] ∧ x.pair = some 0 ∧ x.failed = false ∧ x.done < x.bytes ∧
    (moving x 0).ddrFailed = false ∧ ((moving x 0).qp 511).cnpAt = none ∧
    (moving x 0).ckp.phase = .idle ∧ (go (.rdmaResponse 511 ⟨.nak, false⟩) (moving x 0)).qpState 511 = 2 := by decide +kernel
theorem test_response_ready : EthReady (moving (xfer true 0 false) 0) 511 ∧ EthReady (moving (xfer false 1024 false) 6) 511 ∧
    EthReady (moving (xfer true 0 false) 6) 511 ∧ EthReady (moving (xfer false 1024 false) 7) 511 :=
  ⟨⟨by decide +kernel, by decide +kernel⟩, ⟨by decide +kernel, by decide +kernel⟩, ⟨by decide +kernel, by decide +kernel⟩,
   ⟨by decide +kernel, by decide +kernel⟩⟩
theorem test_response_data : ((go (.rdmaResponse 511 ⟨.ack, false⟩) (moving (xfer true 0 false) 0)).qp 511).xfers = [xfer true 2048 false] ∧
    (go (.rdmaResponse 511 ⟨.ack, true⟩) (moving (xfer true 0 false) 0)).ethTx = [.cnp 511] ∧
    ((go (.rdmaResponse 511 ⟨.readData (List.replicate 8 3), false⟩) (moving (xfer false 1024 false) 0)).qp 511).xfers = [xfer false 1032 false] ∧
    (go (.rdmaResponse 511 ⟨.readData (List.replicate 8 3), false⟩) (moving (xfer false 1024 false) 0)).byte 0x3407 = 3 := by decide +kernel
theorem test_retry : (go (.qpAckTimeout 511) (moving (xfer false 1024 false) 6)).ethTx = [.read 511 0 5 0x9400 1024] ∧
    ((go (.qpAckTimeout 511) (moving (xfer false 1024 false) 6)).qp 511).retries = 7 ∧
    (go (.qpAckTimeout 511) (moving (xfer true 0 false) 6)).ethTx = [.write 511 0xFFFFFF 5 0x9000 (List.replicate 2048 0)] ∧
    (go (.qpAckTimeout 511) (moving (xfer false 1024 false) 7)).qpState 511 = 2 := by decide +kernel
/-- A CNP waits for priority 7 of port 0. -/
def waits7 : State := { eth with pfc := [(0, 0x80)], ethWait := [(0, 7, .cnp 511, 1)] }
theorem test_congestion : storeGet zeroNat eth.pfc 0 < 256 ∧ eth.ethWait = [] ∧ ((go (.cnpReceive 511) eth).qp 511).rate = 400000000000 ∧
    ((go (.cnpRateRaise 511) eth).qp 511).rate = 800000000000 ∧ storeGet zeroNat (go (.pfcFrame 0 0x81 0x80) eth).pfc 0 = 0x80 ∧
    waits7.portUp 0 = true ∧ storeGet zeroNat waits7.pfc 0 < 256 ∧ (0x81 : BitVec 8).getLsbD 7 = true ∧ bit (waits7.reg 0x80010) 15 = true ∧
    (go (.pfcFrame 0 0x81 0) waits7).ethTx = [.cnp 511] := by decide +kernel
theorem test_frames : eth.portUp 0 = true ∧ (storeGet zeroNat eth.pfc 0).testBit 0 = false ∧
    eth.ownGid 0 (0xFFFF * 2 ^ 32 + 0x0A000001) = true ∧ eth.ownGid 0 (0xFE800000 * 2 ^ 96 + 1) = true ∧ eth.ownGid 0 5 = false ∧
    eth.ownGid 0 (0xFFFF * 2 ^ 32 + 1) = false ∧ (go (.arpRequest 0 0x0A000001) eth).ethTx = [.arpReply 0 0x0A000001] ∧
    (go (.neighbourSolicitation 0 (BitVec.ofNat 128 (0xFE800000 * 2 ^ 96 + 1))) eth).ethTx.length = 1 ∧
    (go (.ethFrameDrop ⟨0, false, 2, 3⟩) eth).reg 0x8041C = 1 ∧ (go (.ethFrameDrop ⟨0, true, 2, 3⟩) eth).reg 0x80408 = 1 ∧
    (go (.ethFrameDrop ⟨0, true, 2, 3⟩) eth).reg 0x80410 = 3 := by
  decide +kernel
/-- The DATA registers hold a READY queue pair, a region of context 0 at 0x3000, and a GID. -/
def tables : State := regs eth [(0x80104, 5), (0x80204, 0x40600000), (0x80304, 0xE0000001), (0x80308, 0x3000), (0x80310, 0x1000)]
def badMr : State := regs tables [(0x80304, 0xE1000001)]
theorem test_tables : tables.ready = true ∧ tables.memOn = true ∧ eth.memOn = true ∧ eth.ready = true ∧ badMr.memOn = true ∧ badMr.ready = true ∧ bits (tables.reg 0x80204) 31 30 = 1 ∧ tables.qpState 0 = 0 ∧ tables.qpState 511 ≠ 0 ∧
    tables.mrOk (tables.ethData .mr) = true ∧ badMr.mrOk (badMr.ethData .mr) = false ∧ (go (.ethSelCommit .gid 31) tables).ethEntry .gid 31 = [5, 0, 0, 0] ∧
    (go (.ethSelCommit .qp 0) tables).qpState 0 = 1 ∧ bit ((go (.ethSelCommit .qp 511) tables).reg 0x80200) 29 = true ∧
    (go (.ethSelCommit .mr 4094) tables).mrWord 4094 0 = 0xE0000001 ∧ bit ((go (.ethSelCommit .mr 4095) badMr).mrWord 4095 0) 31 = false ∧
    (go (.ethSelLoad .qp 511) eth).reg 0x80204 = 0x40600000 := by decide +kernel

/-! ### Checkpoints, copy-on-write and memory -/

/-- A drain of context 0, of one plain, to the flash tier; page 16 is live and page 17 is, and page 0 of the pool holds page 16. -/
def hdr1 : Words := words 64 [(4, 11), (8, 1), (9, 1), (10, 176422912)]
def drain (ph : CkpPhase) (area : Nat) : State :=
  { regs (ringUp run0 0) [(0x20020, b2n (ph == .drain)), (0x20024, 3), (0x20028, 0x40000000), (0x20030, 0x50000000), (0x20038, 4), (0x88010, 0x200000), (0x88040, 32768)] with
    ckp := { Ckp.idle with phase := ph, tiers := [1], hdr := hdr1, ranges := [(0x100000, 131072)], area := area, left := [16, 17], slots := [(1, 0, 7)],
                           verify := some (List.replicate 64 0) } }
def pooled : State := { drain .drain 2690 with cow := ⟨[(0, 16)], []⟩ }
theorem test_drain : (drain .drain 2689).ckp.phase = .drain ∧ (drain .drain 2689).ckp.tiers = [1] ∧ (drain .drain 2689).ckp.slots = [(1, 0, 7)] ∧ (drain .drain 2689).cowActive = true ∧
    (drain .drain 2689).ckp.area < areaBytes (manPlains (drain .drain 2689).ckp.hdr) / 65536 ∧ (drain .drain 2689).ckp.left ≠ [] ∧
    (drain .drain 2689).refused none (0x200000 + 65536 * 2689) 65536 false = none ∧ (drain .drain 2689).cellPoisoned (0x200000 + 65536 * 2689) 65536 = false ∧
    flashOk (flashBase (drain .drain 2689) + ((drain .drain 2689).dataBase 0 hdr1 + 65536 * 2689)) 65536 = true ∧
    (drain .drain 2689).cow.waiting = [] ∧ (drain .drain 2689).acks = [] ∧ (drain .drain 2689).win.reads = [] := by decide +kernel
theorem test_drain_pool : pooled.ckp.area = areaBytes (manPlains pooled.ckp.hdr) / 65536 ∧
    pageRun 16 pooled.ckp.ranges (areaBytes 1) = some (0x100000, 65536, areaBytes 1) ∧ (∃ q ∈ pooled.ckp.left, q ≠ 16) ∧
    pooled.refused none (pooled.poolAddr 0 + (0x100000 - pageAddr 16)) 65536 false = none ∧ pooled.cellPoisoned 0x50000000 65536 = false ∧
    flashOk (flashBase pooled + (pooled.dataBase 0 hdr1 + areaBytes 1)) 65536 = true := by decide +kernel
theorem test_drain_pages : (drain .drain 2690).cow.pool = [] ∧ (drain .drain 2690).ckp.left = [16, 17] ∧
    pageRun 16 (drain .drain 2690).ckp.ranges (areaBytes 1) = some (0x100000, 65536, areaBytes 1) ∧
    (drain .drain 2690).refused none 0x100000 65536 false = none ∧ (drain .drain 2690).cellPoisoned 0x100000 65536 = false ∧ (drain .drain 2690).ddrLost = none ∧
    flashOk (flashBase (drain .drain 2690) + ((drain .drain 2690).dataBase 0 hdr1 + areaBytes 1)) 65536 = true := by decide +kernel
def drainedAll : State := { (drain .drain 2690).setReg 0x20020 0 with ckp := { (drain .drain 2690).ckp with left := [] } }
theorem test_prepare : drainedAll.ckp.phase = .drain ∧ drainedAll.drained = true ∧ drainedAll.cowActive = false ∧ drainedAll.ckp.reqs = [] ∧
    drainedAll.ckp.verify.isSome = true ∧ drainedAll.ckp.tiers = [1] ∧ drainedAll.ckp.slots = [(1, 0, 7)] := by decide +kernel
theorem test_prepare_fits : flashOk (flashBase drainedAll + drainedAll.slotBase 0) drainedAll.ckp.manifest.length = true := by
  rw [Ckp.manifest_length _ (List.replicate 64 0) (by decide +kernel) (by decide +kernel) (by simp) (by decide +kernel)]
  decide +kernel
theorem test_roots_fit : flashOk (flashBase (drain .prepared 2690) + 4096 * 0) ((drain .prepared 2690).ckp.rootBytes 0 7).length = true := by
  rw [Ckp.rootBytes_length]
  decide +kernel
/-- The write that is open: a root of 128 bytes, or part of a manifest. -/
def openWrite (n : Nat) : TierReq := ⟨1, true, 0, n, 0, 0x1000000000, List.replicate n 0x77⟩
def written (ph : CkpPhase) (n : Nat) : State := { drain ph 2690 with ckp := { (drain ph 2690).ckp with reqs := [openWrite n] } }
def committing : State :=
  { (written .roots 128).setPair 0 { (written .roots 128).pair 0 with cur := some (entry 0x11 [(3, 11)]) } with
    ckp := { (written .roots 128).ckp with cmd := some (0, entry 0x11 [(3, 11)]) } }
theorem test_written : (written .manifest 4).ckp.reqs = [openWrite 4] ∧ (written .manifest 4).ckp.phase = .manifest ∧ (openWrite 4).len = (openWrite 4).data.length ∧
    (openWrite 128).len = (openWrite 128).data.length ∧ (written .manifest 4).ckp.ctx < 16 ∧ (written .manifest 4).ckp.cmd = none ∧
    (written .manifest 4).ckp.tiers = [1] ∧ (written .manifest 4).ckp.slots = [(1, 0, 7)] ∧ bit ((written .manifest 4).reg 0x88004) 3 = false ∧
    (written .manifest 4).cow.waiting = [] ∧ (written .manifest 4).acks = [] ∧ (written .manifest 4).win.reads = [] ∧
    (go (.flashAccessComplete true) (written .manifest 4)).ckp.phase = .prepared ∧
    (go (.flashAccessComplete false) (written .manifest 4)).ckp.phase = .idle ∧ (written .roots 128).ckp.phase = .roots := by decide +kernel
theorem test_written_posts : CanPost (written .manifest 4) 0 0 ∧ CanPost (written .roots 128) 0 0 ∧ CanPost committing 0 0 ∧ CanPost committing 0 1 :=
  ⟨by constructor <;> decide +kernel, by constructor <;> decide +kernel, by constructor <;> decide +kernel, by constructor <;> decide +kernel⟩
theorem test_committing : committing.ckp.phase = .roots ∧ committing.ckp.cmd = some (0, entry 0x11 [(3, 11)]) ∧ committing.ckp.ctx = 0 ∧
    (committing.pair 0).cur = some (entry 0x11 [(3, 11)]) ∧ (committing.pair 0).old = false ∧ committing.ckp.reqs = [openWrite 128] ∧
    (go (.flashAccessComplete true) committing).ckp = Ckp.idle ∧ (go (.flashAccessComplete true) committing).flashRead 0x100000007F 1 = [0x77] := by decide +kernel
theorem test_entry_commit : AtEntry (drain .prepared 2690) 0 (entry 0x11 [(3, 11)]) 0x11 [(2, 0xFFFFFFFF)] 4 ∧
    AtEntry idle0 0 (entry 0x11 [(3, 11)]) 0x11 [(2, 0xFFFFFFFF)] 4 := ⟨by constructor <;> decide +kernel, by constructor <;> decide +kernel⟩
theorem test_commit : (drain .prepared 2690).ckp.phase = .prepared ∧ (drain .prepared 2690).ckp.ctx = 0 ∧
    wordAt (drain .prepared 2690).ckp.hdr 4 = wordAt (entry 0x11 [(3, 11)]) 3 ∧ (drain .prepared 2690).ckp.tiers = [1] ∧ (drain .prepared 2690).ckp.slots = [(1, 0, 7)] ∧ idle0.ckp.phase ≠ .prepared := by
  decide +kernel
/-- No drain is kept, and the engine's record names a tier: where it is idle a CKP_COMMIT is refused. -/
def restEngine : State := { idle0 with ckp := { Ckp.idle with tiers := [1], slots := [(1, 0, 7)] } }
theorem test_commit_refused : restEngine.ckp.tiers = [1] ∧ restEngine.ckp.slots = [(1, 0, 7)] ∧ restEngine.ckp.phase ≠ .prepared ∧
    (go (.ckpCommit 0 (entry 0x11 [(3, 11)])) restEngine).hostTx.length = 2 := by decide +kernel
def restore : Words := entry 0x12 [(2, 0x40000000), (3, 11), (5, 0x00070000), (6, 0x100000)]
/-- The checkpoint area of the flash begins at 64 GiB. -/
def idleFlash : State := idle0.setReg 0x88040 32768
theorem test_entry_restore : AtEntry idleFlash 0 restore 0x12 [(2, 0x07FFFFFF), (5, 0xFFFF)] 11 ∧ AtEntry (with0 .halted) 0 restore 0x12 [(2, 0x07FFFFFF), (5, 0xFFFF)] 11 :=
  ⟨by constructor <;> decide +kernel, by constructor <;> decide +kernel⟩
theorem test_restore : (idleFlash.ctx 0).st = .idle ∧ idleFlash.ckp.phase = .idle ∧ idleFlash.ckp.reqs = [] ∧ rsTier restore = 1 ∧
    flashOk (flashBase idleFlash) 128 = true ∧ ((with0 .halted).ctx 0).st ≠ .idle ∧
    (go (.ckpRestore 0 restore) idleFlash).ckp.phase = .find ∧ (go (.ckpRestore 0 restore) (with0 .halted)).hostTx.length = 2 := by decide +kernel
/-- Slot B of the plain part holds version 0x0002 and is staged; slot A, of version 0, runs. -/
def newImage : FwImage := { FwImage.factory with ver := 2 }
def stagedSec : Sec := { Sec.factory with slots := [some FwImage.factory, none, some FwImage.factory, some newImage], plainRun := some false, hubRun := some false,
                                          stagedPlain := some true }
def activating : State := { ringUp run0 16 with sec := stagedSec }
theorem test_entry_activate : AtEntry activating 16 (entry 0x13 []) 0x13 [] 2 := by constructor <;> decide +kernel
theorem test_activate : activating.sec.stagedPlain = some true ∧ activating.sec.plainRun ≠ some true ∧ activating.sec.image true true = some newImage ∧
    newImage.ver.toNat / 256 = (activating.sec.version true).toNat / 256 ∧ ((go (.fwActivate 16 (entry 0x13 [])) activating).ctx 0).fwNext = some 2 ∧
    ((go (.fwActivate 16 (entry 0x13 [])) activating).ctx 1).fwPlain = 2 := by decide +kernel

/-- SYN_OBJ_SEL names object 4100, of the RUNNING context 0; or object 5000, of no context. -/
def selected (o : Nat) : State := regs run0 [(0x50000, o)]
theorem test_object : (selected 5000).ready = true ∧ (selected 5000).memOn = true ∧ (∀ m < 16, (selected 5000).ownsObj m (bits ((selected 5000).reg 0x50000) 13 0) = false) ∧
    (selected 4100).ownsObj 0 (bits ((selected 4100).reg 0x50000) 13 0) = true ∧ ((selected 4100).ctx 0).st = .running ∧
    (go (.synObjValueWrite 77) (selected 5000)).obj 5000 = 77 ∧ (go (.synObjValueWrite 77) (selected 4100)).obj 4100 = 0 := by decide +kernel
/-- Page 256 of context 3 waits for its copy. -/
def cowWrite : CowWrite := ⟨256, .host, [(0x1000010, 5, 0xFF)], [], false⟩
def copying1 (pages : Nat) (counted : Bool) : State :=
  { regs (put run0 0x1000000 [1, 2, 3]) [(0x20020, 0x31), (0x20024, 3), (0x20028, 0x40000000), (0x20030, 0x50000000), (0x20038, pages)] with
    cow := ⟨[], [{ cowWrite with counted := counted }]⟩ }
theorem test_tracking : run0.ckp.draining = false ∧ run0.cowActive = false ∧ run0.ready = true ∧ run0.memOn = true ∧ run0.reg 0x20024 ≠ 0xFFFFFFFF#32 ∧
    (go (.cowActiveSet 3) run0).cowCtx = 3 ∧ (go (.cowActiveSet 3) (run0.setReg 0x20024 0xFFFFFFFF)).cowActive = false ∧
    (copying1 4 false).cowActive = true ∧ (copying1 4 false).cowCtx = 3 ∧ (copying1 4 false).ckp.draining = false ∧ (copying1 4 false).ddrLost = none ∧
    (go (.cowActiveClear 5) (copying1 4 false)).log.length = 1 ∧ (go (.cowActiveSet 5) (copying1 4 false)).log.length = 1 ∧
    (drain .drain 2690).ckp.draining = true ∧ (go (.cowActiveClear 3) (copying1 4 false)).byte 0x1000010 = 5 := by decide +kernel
theorem test_cow_inv (counted : Bool) (n : Nat) (h : n ∈ [0, 4]) : Inv (copying1 n counted) := by
  simp only [List.mem_cons, List.mem_nil_iff, or_false] at h
  cases counted <;> rcases h with rfl | rfl <;>
    exact ⟨by decide +kernel, by decide +kernel, by decide +kernel, by decide +kernel, by decide +kernel, by decide +kernel, by decide, trivial⟩
theorem test_run_inv : Inv run0 := ⟨by decide +kernel, by decide +kernel, by decide, by decide, by decide +kernel, by decide +kernel, by decide, trivial⟩
theorem test_copy_page : (copying1 4 false).cow.waiting = [cowWrite] ∧ (copying1 4 false).acks = [] ∧ (copying1 4 false).win.reads = [] ∧ (copying1 0 false).ddrLost = none ∧
    (∀ b ∈ cowWrite.bytes, pageAddr 256 ≤ b.1 ∧ b.1 < pageAddr 256 + 65536) ∧ (copying1 4 false).freeSlot = some 0 ∧ (copying1 4 true).poolFree 3 = true ∧ (copying1 4 false).poolAddr 0 + 65536 ≥ pageAddr 256 ∧
    pageAddr 256 + 65536 ≤ (copying1 4 false).poolAddr 0 ∧ (copying1 4 false).pairVal 0x20028 + 4 * 256 + 4 ≤ (copying1 4 false).poolAddr 0 ∧
    pageAddr 256 + 65536 ≤ (copying1 4 false).pairVal 0x20028 + 4 * 256 ∧ (copying1 0 false).freeSlot = none ∧
    (go .cowPageCopy (copying1 4 false)).cell 0x50000002 = 3 ∧ (go .cowPageCopy (copying1 4 false)).cell 0x1000010 = 5 ∧
    (go (.cowPoolWaitEnd 3) (copying1 4 true)).cow.pool = [(3, 256)] ∧ (go .cowPageCopy (copying1 0 false)).reg 0x20044 = 1 := by decide +kernel

/-- The background pass and a full pass run; 60 corrected errors of stack 0 were counted since the last check; the limit is 50. -/
def scrub : State := regs run0 [(0x2000C, 3), (0x30004, 60), (0x90008, 50)]
theorem test_scrub : run0.ready = true ∧ run0.memOn = true ∧ scrub.mapped 0x3000 64 = true ∧ scrub.ddrFailed = false ∧
    scrub.cellPoisoned 0x3000 64 = false ∧ scrub.msc.dirtyAt (0x3000 / 64) = false ∧
    (go .scrubFull run0).reg 0x2000C = 0x00180003 ∧ (go (.scrubLine 0x3010 .corrected) run0).reg (eccOf 0x3000) = 1 ∧
    (go (.scrubLine 0x3010 .corrected) scrub).reg (eccOf 0x3000) = (scrub.reg (eccOf 0x3000)) + 1 ∧
    (go (.scrubLine 0x3010 .uncorrectable) scrub).cellPoisoned 0x3000 64 = true ∧
    bit (scrub.reg 0x2000C) 1 = true ∧ bit (scrub.reg 0x2000C) 0 = true ∧ (go (.scrubPassEnd true) scrub).reg 0x2000C = 1 ∧
    (go (.scrubPassEnd false) scrub).reg 0x20010 = 1 := by decide +kernel
/-- The MSC holds line 6 (addresses 0x3000 to 0x37FF), clean or with a dirty sector. -/
def cached (dirty : Nat) : State := { run0 with msc := { run0.msc with sets := [(Msc.setOf 6, [⟨0, 6, 1, dirty⟩])] } }
theorem test_cached (dirty : Nat) : (cached dirty).msc.find (0x3000 / 2048) = some ⟨0, 6, 1, dirty⟩ ∧ (cached dirty).mapped 0x3000 64 = run0.mapped 0x3000 64 :=
  ⟨by simp [Msc.find, Msc.linesAt, cached, storeGet], rfl⟩
theorem test_hourly : (0, 0x30004, 6, 0) ∈ eccUnits ∧ (scrub.reg 0x90008).toNat < (scrub.reg 0x30004).toNat - (storeGet zeroWord scrub.eccHour 0).toNat ∧
    (go .eccRateCheck scrub).log.length = 1 := by decide +kernel
theorem test_hot : bit ((go (.hbmTempHigh 11 86) run0).reg 0x302C0) 0 = true ∧ bit ((go (.hbmTempNormal 11 79) (go (.hbmTempHigh 11 86) run0)).reg 0x302C0) 0 = false ∧
    bit ((go (.ddrTempHigh 7 86) run0).reg 0x381C0) 0 = true ∧ bit ((go (.ddrTempNormal 7 80) (go (.ddrTempHigh 7 86) run0)).reg 0x381C0) 0 = true := by
  decide +kernel
theorem test_failures : run0.dbg = .running ∧ bits ((go (.hbmStackFail 0) run0).reg 0x30000) 31 30 = 1 ∧ (go (.hbmStackFail 0) run0).dbg = .scanning ∧
    run0.acks = [] ∧ run0.win.reads = [] ∧ run0.cow.waiting = [] ∧
    (go (.ddrChannelFail 7 0) run0).refused none ddrBase 64 false ≠ none := by decide +kernel
/-- The DMA of `dmJob` has a write to the DDR5 tier that waits for copy-on-write. -/
def tierWait : CowWrite := ⟨16777216, .cmd 0 2, [(1099511627776, 5, 0xFF)], [], false⟩
def tierHeld : State := { dmState with cow := ⟨[], [tierWait]⟩ }
theorem test_tier_held : tierHeld.acks = [] ∧ tierHeld.win.reads = [] ∧ (tierHeld.plain 0).issued.find? (fun i => i.id = 2) = none ∧
    (tierHeld.plain 0).jobs.find? (fun x => x.id = 2) = some dmJob ∧ tierHeld.owner 0 = some 0 ∧ (tierHeld.ctx 0).st = .running ∧ tierHeld.resetting 0 = false ∧
    tierHeld.ckp.phase = .idle ∧ bit (tierHeld.reg 0x98000) 4 = false ∧ bit (tierHeld.reg (offPln 0 8)) 31 = false ∧
    ((go (.ddrChannelFail 3 0) tierHeld).ctx 0).st = .halted ∧ (go (.ddrChannelFail 3 0) tierHeld).reg (offPln 0 8) = 0x80000702#32 := by decide +kernel

/-! ### Margins, clocks, resets, bring-up and the watershed -/

/-- Margin control: a threshold of 20 ps and at most 3 voltage steps; plain 15 stands at 3 steps and at the lowest clock. -/
def aged (word : Nat) : State := regs run0 [(0x90000, 0x00140003), (0x901F0, word), (0x5903C, 0x80000000)]
theorem test_margin : (aged 0xA8C00000).reg 0x901F0 = 0xA8C00000 ∧ bits ((aged 0xA8C00000).reg 0x90000) 23 16 = 20 ∧
    bits ((aged 0xA8C00000).reg 0x90000) 5 0 = 3 ∧ bits ((aged 0xA8C00000).reg 0x901F0) 19 14 = 0 ∧
    bits ((aged 0xA8C0C000).reg 0x901F0) 19 14 = 3 ∧ bits ((aged 0xA8C0C000).reg 0x901F0) 31 20 = 2700 ∧
    bits ((aged 0x7D00C000).reg 0x901F0) 31 20 = 2000 ∧ bit ((aged 0x7D00C000).reg 0x90004) 31 = false ∧ (aged 0x7D00C000).owner 15 = some 0 ∧
    ((aged 0x7D00C000).ctx 0).st = .running ∧ (aged 0x7D00C000).resetting 0 = false ∧ (aged 0x7D00C000).ckp.phase = .idle ∧
    bit ((aged 0x7D00C000).reg (offPln 15 8)) 31 = false ∧ bit ((aged 0x7D00C000).reg 0x98000) 4 = false := by decide +kernel
theorem test_margin_steps : (go (.ageMeasure 15 20 7) (aged 0xA8C00000)).reg 0x901F4 = 0x00070014 ∧
    (go (.ageMeasure 15 19 7) (aged 0xA8C00000)).reg 0x901F0 = 0xA8C04000 ∧
    bits ((go (.ageMeasure 15 19 7) (aged 0xA8C0C000)).reg 0x901F0) 31 20 = 2675 ∧
    ((go (.ageMeasure 15 19 7) (aged 0x7D00C000)).ctx 0).st = .halted := by decide +kernel
def floored : State := regs run0 ((List.range 16).map fun p => (0xB8100 + 4 * p, 2000 * 256))
def near : State := floored.setReg 0xB8004 2651
def throttled : State := regs run0 [(0xB8004, 0x40000000)]
theorem test_clocks : bit (run0.reg 0xB8004) 30 = false ∧ bit (throttled.reg 0xB8004) 30 = true ∧ (∀ p < 16, floored.powerMhz p = 2000) ∧
    (go (.pwrMeasure 2999) run0).reg 0xB8004 = 2999 ∧ (go .pwrClockLower run0).powerMhz 15 = 2675 ∧ (go .pwrClockRaise floored).powerMhz 15 = 2025 ∧
    (go .pwrClockRaise throttled).reg 0xB8004 = 0x40000000 ∧ (go .pwrClockRaise near).powerMhz 15 = 2000 ∧ bit ((go .pwrFloor floored).reg 0xB8004) 29 = true ∧
    bit ((go (.thermalThrottle 106) run0).reg 0xB8004) 30 = true ∧ bit ((go (.thermalRecover 90) throttled).reg 0xB8004) 30 = false := by decide +kernel

def dark : State := { State.reset with board := { State.reset.board with power := false, under := true } }
def tripped : State := { State.reset with board := { State.reset.board with trip := true, level := .none } }
def tripHeld : State := { State.reset with board := { State.reset.board with trip := true, level := .none, cold := some 1 } }
theorem test_cold : up.board.power = true ∧ up.board.level ≠ .cold ∧ up.board.cold = none ∧ up.board.trip = false ∧ up.ready = true ∧ up.memOn = true ∧ (written .manifest 4).board.power = true ∧
    (written .manifest 4).flashWrites = [openWrite 4] ∧ (go .inputUndervolt (written .manifest 4)).flashRead 0x1000000003 1 = [0x77] ∧
    tripped.board.power = true ∧ tripped.board.level ≠ .cold ∧ tripped.board.cold = none ∧ tripped.board.trip = true ∧ dark.board.power = false ∧
    tripHeld.board.cold = some 1 ∧ (go .rstN run0).reg 0xC0008 = 0x10000000 ∧ ((go .rstCtrlCold run0).ctx 0).st = .idle ∧ (go .rstN tripped).board.cold = some 1 ∧
    (go .powerUp dark).reg 0xC0008 = 0x30000000 ∧ (go .inputUndervolt run0).board.under = true ∧ (go .overcurrentTrip run0).board.power = false ∧
    (go (.thermalResetRelease 95) tripHeld).board.trip = false ∧ (go (.thermalResetRelease 96) tripHeld).board.trip = true := by decide +kernel
/-- The device runs context 0, has logged one entry, and holds a byte of memory. -/
def worked : State := put (go (.rxStop 0 pStop) net) 0x123456 [9]
theorem test_warm : worked.ready = true ∧ worked.memOn = true ∧ worked.board.power = true ∧ worked.board.level = .none ∧ worked.board.trip = false ∧ worked.board.waiting = false ∧
    worked.ckp.phase = .idle ∧ worked.mgt.long = none ∧ worked.cow.waiting = [] ∧ (go .warmN worked).cell 0x123456 = 9 ∧ (go .warmN worked).log.length = 1 ∧
    ((go .rstCtrlWarm worked).ctx 0).st = .idle ∧ (go .rstCtrlWarm worked).reg 0xC0008 = 0x50000000 := by decide +kernel
theorem seqDown_one (h : W32) (l : List Words) (e : l.map (fun w => wordAt w 2) = [h - 1]) : seqDown h l := by
  cases l with
  | nil => trivial
  | cons w r => simp at e; exact ⟨e.1, e.2 ▸ trivial⟩
theorem test_warm_stores : (Memory.wf worked.mem ∧ storeWf regDefault worked.regs) ∧ storeWf (fun _ => (0 : W32)) worked.objs := by decide +kernel
theorem test_warm_log : (((∀ w ∈ worked.cow.waiting, ∀ b ∈ w.bytes, pageOf b.1 = w.page) ∧ worked.cow.waiting = [] ∧ worked.ddrLost = none) ∧
    worked.log.length ≤ 16384) ∧ worked.log.map (fun w => wordAt w 2) = [worked.logHead - 1] := by decide +kernel
theorem inv_of_one (s : State) (a : (Memory.wf s.mem ∧ storeWf regDefault s.regs) ∧ storeWf (fun _ => (0 : W32)) s.objs)
    (b : (((∀ w ∈ s.cow.waiting, ∀ b ∈ w.bytes, pageOf b.1 = w.page) ∧ s.cow.waiting = [] ∧ s.ddrLost = none) ∧ s.log.length ≤ 16384) ∧
      s.log.map (fun w => wordAt w 2) = [s.logHead - 1]) :
    Inv s := ⟨a.1.1, a.1.2, a.2, b.1.1.1, fun _ => b.1.1.2.1, fun _ => b.1.1.2.2, b.1.2, seqDown_one _ _ b.2⟩
theorem test_warm_inv : Inv worked := inv_of_one worked test_warm_stores test_warm_log
def failedUp : State := { run0 with regs := [(0xB0000, 0xE0000601#32)] }
def waits : State := { State.reset with regs := [(0xB0000, 0x20000000#32)], board := { State.reset.board with waiting := true } }
theorem test_rails : run0.rails = true ∧ run0.phase ≠ 7 ∧ failedUp.rails = true ∧ failedUp.phase = 7 ∧ (go (.rstThermal 110) failedUp).phase = 7 ∧ (run0.ctx 0).st.live = true ∧ run0.resetting 0 = false ∧ waits.board.power = true ∧
    waits.board.waiting = true ∧ waits.board.trip = false ∧ ((go .rstPowerOff run0).ctx 0).st = .halted ∧ (go (.rstThermal 110) run0).board.trip = true ∧
    (go .pwrEnRise waits).phase = 2 := by decide +kernel

/-- What bring-up finds; a device in a phase, whose hub slots verify or do not. -/
def found (ok : Bool) : BringupObs := ⟨true, ok, if ok then 0xFFF else 0x7FF, [], 3, 1, [], []⟩
def inPhase (n : Nat) (pwrEn boots : Bool) : State :=
  { State.reset with regs := if n = 0 then [] else [(0xB0000, BitVec.ofNat 32 (n * 2 ^ 29))], board := { State.reset.board with pwrEn := pwrEn },
                     sec := if boots then Sec.factory else { Sec.factory with slots := [none, none, none, none] } }
theorem test_bringup : (∀ n < 5, (inPhase n true true).phase = n) ∧ (inPhase 0 true true).sec.bootSlot false = some false ∧
    (inPhase 0 true false).sec.bootSlot false = none ∧ (inPhase 2 true true).sec.bootSlot true = some false ∧ (inPhase 2 true false).sec.bootSlot true = none ∧
    (go (.bringupPhaseEnd (found true)) (inPhase 0 true true)).phase = 1 ∧ (go (.bringupPhaseEnd (found true)) (inPhase 0 true false)).phase = 6 ∧
    (go (.bringupPhaseEnd (found true)) (inPhase 1 true true)).phase = 2 ∧ (go (.bringupPhaseEnd (found true)) (inPhase 1 false true)).board.waiting = true ∧
    (go (.bringupPhaseEnd (found true)) (inPhase 2 true true)).phase = 3 ∧ (go (.bringupPhaseEnd (found false)) (inPhase 2 true true)).phase = 7 ∧
    (go (.bringupPhaseEnd (found true)) (inPhase 2 true false)).phase = 7 ∧ (go (.bringupPhaseEnd (found true)) (inPhase 3 true true)).phase = 4 ∧
    (go (.bringupPhaseEnd (found false)) (inPhase 3 true true)).phase = 7 ∧ (go (.bringupPhaseEnd (found true)) (inPhase 4 true true)).ready = true ∧
    (inPhase 2 true true).board.trip = false ∧ (inPhase 2 true true).board.waiting = false ∧ (inPhase 2 true true).board.power = true := by
  decide +kernel

def resets : State := (regs run0 [(0xC0004, 1), (0x98000, 0)]).setObj 4096 5
def notRunning : State := { run0 with dbg := .stopped }
theorem test_ctx_reset : run0.ready = true ∧ run0.memOn = true ∧ notRunning.memOn = true ∧ notRunning.dbg ≠ .running ∧
    (go (.rstCtx 1) waitingNet).outst = [] ∧ run0.dbg = .running ∧ (∀ m < 16, run0.resetting m = false) ∧ (∀ m < 16, notRunning.resetting m = false) ∧
    notRunning.ready = true ∧ resets.resetting 0 = true ∧ resets.ctxBusy 0 = false ∧ resets.ckp.phase = .idle ∧ resets.cowActive = false ∧
    (go (.rstCtx 0x8001) run0).resetting 15 = true ∧ ((go (.rstCtx 0x8001) run0).plain 0).pcc = .stopped ∧
    bit ((go (.rstCtx 0x8001) notRunning).reg 0xC0008) 15 = true ∧ ((go (.ctxResetApply 0) resets).ctx 0).st = .idle ∧
    (go (.ctxResetApply 0) resets).obj 4096 = 0 := by decide +kernel
theorem test_ctx_inv : Inv resets := ⟨by decide, by decide +kernel, by decide +kernel, by decide, by decide +kernel, by decide +kernel, by decide, trivial⟩
/-- MSI-X is enabled, and vector 17 is masked or not. -/
def alarmed (mask : Nat) : State := { regs run0 [(0x10004, 0x80000000), (0xE011C, mask)] with pci := [(4, 0x00100002#32), (0x70, 0x80110011#32)] }
def erases : State := { run0 with sec := { Sec.factory with eraseAll := true, ak := some ⟨3, [], []⟩ } }
theorem test_alarm : erases.board.power = true ∧ erases.sec.eraseAll = true ∧ (∀ k < 2, ((alarmed k).pair 16).st ≠ .detached ∧ bit ((alarmed k).reg 0x10004) 31 = true ∧ (alarmed k).msixOn = true ∧
      (alarmed k).board.power = true ∧ (alarmed k).msixMasked 17 = decide (k = 1)) ∧ (go (.secAlarm .temp) (alarmed 0)).hostTx = [.msix 17] ∧
    bit ((go (.secAlarm .temp) (alarmed 1)).reg 0xE8000) 17 = true ∧ run0.sec.eraseAll = false ∧ alarmNum .debug = 4 ∧ alarmNum .vglitch = 0 ∧
    (go (.secAlarm .debug) erases).sec.idk = false ∧ (go (.secAlarm .temp) run0).sec.idk = true ∧ ((go (.secAlarm .vglitch) run0).ctx 0).st = .halted ∧
    ((go (.secAlarm .debug) run0).ctx 0).st = .running := by decide +kernel

def quiet : State := run0.setReg 0x98000 0
def scans : State := regs { run0 with dbg := .scanning } [(0x98018, 1), (0x98010, 0x200000), (0x98004, 0x20010000), (0x9801C, 0)]
def frozen : State := regs { run0 with dbg := .stopped } [(0x98004, 0x20010000)]
theorem scanList_none (s : State) (h : s.reg 0x9801C = 0) : s.scanList = [] := by
  have e : ((List.range 3).filter fun k => bit (s.reg 0x9801C) k) = [] := by rw [h]; decide
  unfold State.scanList
  rw [e]
  simp
theorem test_scan_fit : scanFixed + ((scanFit scans.scanList ((scans.reg 0x98018).toNat * 2097152 - scanFixed)).map fun x => memBytes x.2).sum = scanFixed := by
  rw [scanList_none scans (by decide +kernel)]; rfl
theorem test_watershed : run0.ready = true ∧ run0.memOn = true ∧ frozen.memOn = true ∧ scans.ddrFailed = false ∧ scans.ddrLost = none ∧ run0.dbg ≠ .stopped ∧
    bit (quiet.reg 0x98000) 5 = false ∧ run0.dbg = .running ∧ scans.dbg = .scanning ∧ scans.cowActive = false ∧ scans.cow.waiting = [] ∧
    scanFixed ≤ (scans.reg 0x98018).toNat * 2097152 ∧
    bits (scans.reg 0x9801C) 2 0 = 0 ∧
    scans.refused none (scans.pairVal 0x98010) scanFixed true = none ∧ frozen.ready = true ∧ frozen.dbg = .stopped ∧ bit (frozen.reg 0x98004) 29 = true ∧
    (∀ p < 16, (frozen.plain p).resume = false ∧ ∀ j ∈ (frozen.plain p).jobs, j.coll = false) ∧ (go .dbgCtrlStop run0).dbg = .scanning ∧ (go .dbgCtrlStop quiet).frozen = [0] ∧
    (go .dbgCtrlResume frozen).dbg = .running ∧
    (go .dbgCtrlResume run0).log.length = 1 := by decide +kernel

/-! ### Registers, counters and the management core -/

/-- The privileged space and a view write registers with no effect of their own. -/
def captured : State := { run0 with capt := [(16 * 2 ^ 21 + 0x98010, some 5)] }
theorem test_registers : (regRow 0x9804C).map (fun w => (w.kind, w.half)) = some (.plain, .single) ∧ run0.mapOn 16 = true ∧ run0.mapOn 3 = true ∧ frozen.mapOn 16 = true ∧ run0.mayAccess 16 0x9804C = true ∧ (regRow 0x98014).isSome = true ∧
    (go (.pairLoRead 16 0x9804C) run0).hostTx = [.regData 16 0x9804C 0] ∧ captured.mapOn 16 = true ∧ captured.ready = true ∧
    storeGet (fun _ => none) captured.capt (16 * 2 ^ 21 + 0x98014 - 4) = some 5 ∧ (go (.pairLoRead 16 0x98014) captured).hostTx = [.regData 16 0x98014 5] ∧
    (go (.regWrite 16 0x9804C 7) run0).reg 0x9804C = 7 ∧ (go (.regWrite 16 0x98040 0xFFFFFFFF) run0).reg 0x98040 = 0xE000000F ∧
    (regRow 0x98014).map (fun w => (w.kind, w.half, w.rw)) = some (.plain, .hi, 0x3FF) ∧ (go (.pairHiWrite 16 0x98014 0xFFFFFFFF) run0).reg 0x98014 = 0x3FF ∧
    (regRow 0x98010).map (fun w => (w.kind, w.half)) = some (.plain, .lo) ∧ (go (.pairLoRead 16 0x98010) frozen).hostTx = [.regData 16 0x98010 0] ∧
    run0.mayAccess 3 0x9804C = false ∧ (go (.pairLoRead 3 0x9804C) run0).hostTx = [.regData 3 0x9804C 0] ∧ (go (.regWrite 3 0x9804C 7) run0).reg 0x9804C = 0 ∧ (go (.regWrite 3 0x9804C 7) run0).log.length = 1 ∧
    (go (.regMisaligned 16 0x9804E 4 false) run0).hostTx = [.regData 16 0x9804E 0] ∧ (go (.regMisaligned 16 0x9804C 2 true) run0).log.length = 1 := by
  decide +kernel

theorem test_captures : (go (.cntSelCapture 16 0x80000105) { run0 with cntShadow := [(21, [3])] }).cntRec ≠ [] ∧
    (go .cntGlbClear { run0 with glb := List.replicate 16 5 }).glbVal 0 = 0 ∧ run0.reaches 16 = true ∧ run0.memOn = true ∧ run0.ready = true ∧
    (go .dbgCtrlResume run0).reaches 16 = true ∧ (go .dbgCtrlResume run0).ready = true ∧ (go (.logSelCapture 16 0) (go .dbgCtrlResume run0)).logRec ≠ [] ∧
    (go .dbgCtrlResume run0).logHead - 0 = 1 ∧ (go .dbgCtrlResume run0).log.length = 1 := by decide +kernel
theorem test_captures_inv : Inv (go .dbgCtrlResume run0) :=
  inv_of_one (go .dbgCtrlResume run0) (by decide +kernel) (by decide +kernel)

/-- The management core is idle; it has a nonce of sevens, and its hub has an image staged in slot B. -/
def core0 : State := { run0 with sec := { Sec.factory with nonce := some (List.replicate 64 7), stagedHub := some true, boot := Sec.factory.boot } }
def long (op : LongOp) (j : Journal) : State := { core0 with mgt := { core0.mgt with long := some (op, .header, 9, true) }, sec := { core0.sec with journal := some j } }
def scrubbed : State := { core0 with mgt := { core0.mgt with long := some (.fullScrub, .header, 9, true) } }
theorem test_serves : core0.hears .header = true ∧ core0.hears .vdm = true ∧ core0.hears .mailbox = true ∧ core0.ready = true ∧ core0.mgt.long = none ∧
    bit (core0.reg 0xB0014) 30 = false ∧ bits ((core0.setReg 0xB0018 3).reg 0xB0018) 7 0 = 3 ∧ core0.sec.fails = 0 ∧ core0.board.power = true ∧
    bits ((core0.setReg 0xB0008 5).reg 0xB0008) 15 0 ≠ 0 ∧ core0.sec.staged false = some true ∧ core0.sec.staged true = none ∧
    core0.sec.boot.length = 2 ∧ bit (core0.reg 0x2000C) 1 = false := by decide +kernel
theorem test_queries : (go (.getStatus .header 4) core0).mgtTx = [.vendor .header 4 false 0 [0xA0000000, core0.secStatus, 0]] ∧
    (go (.getStatus .mailbox 4) core0).reg 0xB0014 = 0x80040000 ∧ (go (.getIdentity .vdm 4) core0).mgtTx.length = 1 ∧
    (go (.getSensor .header 4 0) (core0.setReg 0xB0018 3)).mgtTx.length = 1 ∧ (go (.heartbeat .header 4 6) core0).mgtTx.length = 1 ∧
    (go (.debugChallenge .header 4) core0).mgtTx.length = 1 ∧ bit ((go .hbTimeout (core0.setReg 0xB0008 5)).reg 0xB0000) 23 = true := by decide +kernel
theorem test_long_operations : (go (.keyErase .header 4 1) core0).mgt.long = some (.keyErase true, .header, 4, true) ∧
    (go (.fwCommit .header 4 0) core0).sec.journal = some (.commit false true 0) ∧
    (go (.fwCommit .header 4 1) core0).mgtTx = [.vendor .header 4 false 0x1603 []] ∧ bit ((go (.fullScrub .header 4) core0).reg 0x2000C) 1 = true ∧
    (go .longOperationEnd (long (.keyErase true) (.erase true))).sec.ak = none ∧
    (go .longOperationEnd (long (.fwCommit false) (.commit false true 0))).sec.named false = true ∧
    (long (.fwCommit false) (.commit false false 0)).sec.image false false = some FwImage.factory ∧ (long (.fwCommit false) (.commit false true 0)).sec.boot.length = 2 ∧
    (go .longOperationEnd scrubbed).mgt.long = none := by decide +kernel

/-- A request to unlock: level 1, key 0, a public key of P-521 and its signature over 64 sevens, a serial number of 0 and the level. -/
def unlockKey : Bytes := 4 :: (beBytes 66 0x691DF2E8A38C16362522C997DDC363F4E005C1ADF3BFC6CAA41A281206931BD9A5FB2A512020A583DC3B0E0109B81C39AD80BFCD7FD96DB2BA01905B3DE5B9BEDE ++
  beBytes 66 0x118368E455643CAE60339B0BF6C2BA1AD02775240D408DEA8814D19CC5AAE74111314D65A6EB27A0D4ACFEB346EE50FFC80AAF1B40DA6FFB860F15332BC47F9855E)
def unlockR : Bytes := beBytes 66 0x1393FB703B6840927251C65D4FE7B91019DB65F714EDA80BDEA82DB8E394F6E365A02442C9C6FB75176618DBC85FEC304F19BC23CE21E56F1CE535C93C05704B175
def unlockS : Bytes := beBytes 66 0x993391E0A0AAC03C499BEA0AD94C587C0BE32877C3174EFB665C74E466DAA3621CB8503AE2467198E978C8C267B1BF5A6B543E7C0BEA72F06306DF1956AA5373D4
def unlock : Bytes := [1, 0, 0, 0] ++ unlockKey ++ unlockR ++ unlockS
theorem test_ecdsa : ecdsaOk unlockKey (List.replicate 64 7 ++ List.replicate 8 0 ++ [1]) unlockR unlockS = true := by decide +kernel
theorem test_unlock_parts : (unlock.length = 269 ∧ unlock.headD 0 = 1 ∧ leNat ((unlock.drop 1).take 1) = 0 ∧ (unlock.drop 4).take 133 = unlockKey) ∧
    (unlock.drop 137).take 66 = unlockR ∧ (unlock.drop 203).take 66 = unlockS ∧ core0.sec.revoke = 0 ∧ leBytes 8 core0.sec.serial.toNat = List.replicate 8 0 := by
  decide +kernel
/-- The device whose first root key is that key opens; any other request fails. -/
theorem test_unlock (h : Config.rootHash 0 = sha512 unlockKey) : core0.sec.unlockOk unlock = true := by
  obtain ⟨⟨-, a, b, c⟩, d, e, f, g⟩ := test_unlock_parts
  have n : core0.sec.nonce = some (List.replicate 64 7) := rfl
  simp only [Sec.unlockOk, n, a, b, c, d, e, f, g, h, test_ecdsa]
  decide
/-- Eight requests have failed. -/
def locked : State := { core0 with sec := { core0.sec with fails := 8 } }
theorem test_unlock_locked : 8 ≤ locked.sec.fails ∧ locked.hears .header = true ∧ locked.ready = true ∧ locked.mgt.long = none ∧
    (go (.debugUnlock .header 4 unlock) locked).mgtTx = [.vendor .header 4 false 0x1505 []] := by decide +kernel
theorem test_unlock_fails : core0.sec.unlockOk [2] = false ∧ (go (.debugUnlock .header 4 [2]) core0).sec.fails = 1 := by decide +kernel

theorem test_mctp : eidLsb .header = some 0 ∧ eidLsb .vdm = some 8 ∧ bits ((go (.mctpControl .vdm (.setEid 0x55)) core0).reg 0xB000C) 15 8 = 0x55 ∧
    (go (.mctpControl .header .getEid) core0).mgtTx = [.mctp .header .success [0]] ∧ (go (.mctpControl .header .getVersion) core0).mgtTx.length = 1 ∧
    (go (.mctpControl .header .getTypes) core0).mgtTx = [.mctp .header .success [0, 1, 5, 6, 0x7E]] ∧
    (go (.mctpControl .header .other) core0).mgtTx = [.mctp .header .unsupported []] := by decide +kernel
theorem test_pldm_served : PldmServed core0 .vdm := ⟨.inr rfl, by decide +kernel, by decide +kernel, rfl⟩
theorem test_pldm : (go (.setTid .vdm 5) core0).mgt.tid = 5 ∧ (go (.getPldmTypes .vdm) core0).mgtTx = [.pldm .vdm .success [0, 2, 5]] ∧
    (go (.getTid .header) (go (.setTid .header 5) core0)).mgtTx = [.pldm .header .success [], .pldm .header .success [5]] ∧
    (go (.getPldmVersion .vdm 2) core0).mgtTx.length = 1 ∧ (go (.getPldmCommands .vdm 5) core0).mgtTx = [.pldm .vdm .success (pldmCommands 5)] ∧
    (go (.getPdr .vdm 0) (core0.setReg 0xB0018 3)).mgtTx.length = 1 ∧ (go (.getSensorReading .vdm 0) (core0.setReg 0xB0018 3)).mgtTx.length = 1 ∧
    (go (.queryDeviceIdentifiers .vdm) core0).mgtTx.length = 1 ∧ (go (.getFirmwareParameters .vdm) core0).mgtTx.length = 1 := by decide +kernel

/-- An update of the hub part in a state, with the bytes that arrived. -/
def updating (st : UpdState) (data : Store Byte) : State := { core0 with mgt := { core0.mgt with update := some ⟨st, [⟨false, 512⟩], ⟨false, 512⟩, data⟩ } }
theorem test_update : core0.sec.slots.length = 4 ∧ core0.sec.target false = true ∧ core0.sec.slotOk false true = false ∧
    (go (.requestUpdate .header) core0).mgt.update = some ⟨.learn, [], ⟨false, 0⟩, []⟩ ∧
    (go (.requestUpdate .header) (updating .learn [])).mgtTx = [.pldm .header .wrongState []] ∧
    (go (.pldmGetStatus .header) (updating .apply [])).mgtTx = [.pldm .header .success [BitVec.ofNat 32 (updCode .apply)]] ∧
    (go (.cancelUpdate .header) (updating .apply [])).mgt.update = none ∧
    ((go (.passComponentTable .header [⟨true, 512⟩]) (updating .learn [])).mgt.update.map fun u => u.table) = some [⟨true, 512⟩] ∧
    (go (.updateComponent .header ⟨false, 512⟩) (updating .ready [])).sec.staged false = none ∧
    ((go (.requestFirmwareData .header 0 [9]) (updating .download [])).mgt.update.map fun u => u.data) = some [(0, 9)] := by decide +kernel
theorem test_update_end : ((go (.transferComplete .header) (updating .download [(8, 9)])).sec.image false true).map (fun x => x.ver) = some 9 ∧
    (go (.verifyComplete .header) (updating .verify [])).mgt.update.map (fun u => u.st) = some .ready ∧
    (go (.applyComplete .header) (updating .apply [])).mgt.update.map (fun u => u.st) = some .ready ∧
    (go (.activateFirmware .header) (updating .ready [])).sec.journal = some (.commit false true 0) := by decide +kernel
/-- The factory image in slot A verifies, so that an update of the slot that does not run is staged. -/
def fromB : State := { updating .verify [] with sec := { core0.sec with hubRun := some true, stagedHub := none } }
theorem test_update_verifies : fromB.sec.target false = false ∧ fromB.sec.slotOk false false = true ∧
    (go (.verifyComplete .header) fromB).sec.staged false = some false := by decide +kernel

/-- The DOE mailbox's connection is negotiated, with keys or without; a session is in its handshake, another is open. -/
def spdm (keys : Bool) : State :=
  { core0 with sec := { core0.sec with idk := keys, ak := if keys then some ⟨3, [], []⟩ else none },
               mgt := { core0.mgt with spdm := [(2, ⟨3, some (.finishRsp, 4)⟩)], sessions := [(0x10002, false), (0x30004, true)] } }
def full : State := { spdm true with mgt := { (spdm true).mgt with sessions := List.replicate 4 (1, true) } }
theorem test_spdm_states : (spdm true).hears .doe = true ∧ (spdm true).ready = true ∧ (spdm true).mgt.long = none ∧ ((spdm true).conn .doe).stage = 3 ∧
    (spdm true).sec.idk = true ∧ (spdm true).sec.ak = some ⟨3, [], []⟩ ∧ (spdm false).sec.idk = false ∧ (spdm true).mgt.sessions.length < 4 ∧ ((spdm true).conn .doe).large = some (.finishRsp, 4) ∧ full.mgt.sessions.length = 4 := by
  decide +kernel
/-- A chain is longer than its first word, so that a part of it can be asked for. -/
theorem test_chain : 0 < ((spdm true).sec.chain ⟨3, [], []⟩).length := by
  simp only [Sec.chain, List.length_append, leBytes_length]
  omega
theorem test_spdm : (go (.getVersion .doe) (spdm true)).mgtTx = [.spdm .doe (.version [0x12, 0x13])] ∧
    (go (.getCapabilities .doe) (spdm true)).mgtTx = [.spdm .doe (.capabilities 16 [.cert, .chal, .measSig, .measFresh, .encrypt, .mac, .keyEx, .hbeat, .keyUpd, .chunk])] ∧ (go (.negotiateAlgorithms .doe) (spdm true)).mgtTx = [.spdm .doe (.algorithms [.ecdsaP521, .sha512, .dheSecp521r1, .aes256Gcm, .keySchedule])] ∧
    (go (.getDigests .doe) (spdm false)).mgtTx = [.spdm .doe (.digests none)] ∧
    (go (.challenge .doe 0 (List.replicate 32 0)) (spdm false)).mgtTx = [.spdm .doe (.error .unspecified)] ∧
    (go (.keyExchange .doe 7 (List.replicate 132 0)) full).mgtTx = [.spdm .doe (.error .sessionLimit)] ∧
    (go (.finish .doe 0x10002 true) (spdm true)).mgt.sessions = [(0x10002, true), (0x30004, true)] ∧
    (go (.finish .doe 0x10002 false) (spdm true)).mgt.sessions = [(0x30004, true)] ∧
    (go (.spdmHeartbeat .doe 0x30004) (spdm true)).mgtTx = [.spdm .doe .heartbeatAck] ∧
    (go (.keyUpdate .doe 0x30004) (spdm true)).mgtTx = [.spdm .doe .keyUpdateAck] ∧
    (go (.endSession .doe 0x30004) (spdm true)).mgt.sessions = [(0x10002, false)] := by decide +kernel

end Sys2Proof.Tests
end

/-! SUPPORT. The queue of commands: no operation of the model touches it, and every command answers a next state.

A proof here follows the branches of its definition. Where the kernel would have to evaluate a discriminant (a range of addresses, a register with its
offset) only to see that two forms of a branch are the same, the branch is named by an equation first (`KeepsPending.of_eq`, `generalize`), the
function gets an opaque name (`exists_eq`), or the lemmas are applied with their proofs (`rw`, `simp -implicitDefEqProofs`). -/

namespace Sys2Proof.Machine

/-! ### What it is to keep the queue -/

/-- A function of the state leaves the queue as it is. -/
def KeepsPending (f : State → State) : Prop := ∀ t, (f t).pending = t.pending

@[simp] theorem keepsPending_iff (f : State → State) : KeepsPending f ↔ ∀ t, (f t).pending = t.pending :=
  ⟨fun h => h, fun h => h⟩

theorem KeepsPending.eq {f : State → State} (h : KeepsPending f) (t : State) : (f t).pending = t.pending := h t

theorem KeepsPending.of_eq {f : State → State} (h : ∀ t u, f t = u → u.pending = t.pending) : KeepsPending f := fun t => h t _ rfl

/-- A command's answer is a next state, and the queue in it is that of `s`. -/
def KeepsQueue (s : State) (r : Result) : Prop := ∃ t, r = .next t ∧ t.pending = s.pending

@[simp] theorem keepsQueue_next (s t : State) : KeepsQueue s (.next t) ↔ t.pending = s.pending :=
  ⟨fun ⟨_, e, h⟩ => by cases e; exact h, fun h => ⟨t, rfl, h⟩⟩

@[simp] theorem State.ite_pending (c : Prop) [Decidable c] (s t : State) :
    (if c then s else t).pending = if c then s.pending else t.pending :=
  apply_ite State.pending c s t

/-- A fold keeps the queue when every pass of it does. -/
@[simp] theorem State.foldl_pending {α : Type} (f : State → α → State) (h : ∀ x, KeepsPending fun t => f t x) (l : List α) (s : State) :
    (l.foldl f s).pending = s.pending :=
  foldl_inv (fun t => t.pending = s.pending) f (fun t x e => (h x t).trans e) l s rfl

/-- The same for a fold that carries more than the state. -/
theorem foldl_fst_pending {α β : Type} (f : State × β → α → State × β) (h : ∀ x a, (f x a).1.pending = x.1.pending) (l : List α) (x : State × β) :
    (l.foldl f x).1.pending = x.1.pending :=
  foldl_inv (fun y => y.1.pending = x.1.pending) f (fun y a e => (h y a).trans e) l x rfl

/-! ### Registers, the log, completions, memory, packets, faults (Ops) -/

@[simp] theorem State.bump_pending (s : State) (off : Nat) (n : Nat) : (s.bump off n).pending = s.pending := by simp [State.bump]
@[simp] theorem State.setPairVal_pending (s : State) (lo v : Nat) : (s.setPairVal lo v).pending = s.pending := by simp [State.setPairVal]
@[simp] theorem State.applyPair_pending (s : State) (lo : Nat) (l h : W32) : (s.applyPair lo l h).pending = s.pending := by
  simp [State.applyPair]
@[simp] theorem State.draw_snd_pending (s : State) : s.draw.2.pending = s.pending := by simp [State.draw]
@[simp] theorem State.addObj_pending (s : State) (o n : Nat) : (s.addObj o n).pending = s.pending := by simp [State.addObj]
@[simp] theorem State.logAdd_pending (s : State) (kind : Nat) (ctx : Option Nat) (code cls idx d5 d6 d7 : Nat) :
    (s.logAdd kind ctx code cls idx d5 d6 d7).pending = s.pending := by
  simp only [State.logAdd]; split <;> simp
@[simp] theorem State.discard_pending (s : State) (v off : Nat) (value : W32) : (s.discard v off value).pending = s.pending := by
  simp [State.discard]
@[simp] theorem State.addGlb_pending (s : State) (k n : Nat) : (s.addGlb k n).pending = s.pending := by simp [State.addGlb]
@[simp] theorem State.addCycles_pending (s : State) (ks : List Nat) : (s.addCycles ks).pending = s.pending := by simp [State.addCycles]
@[simp] theorem State.regGate_pending (s : State) (ok : Bool) (v off : Nat) (value : W32) (f : State → State) (hf : KeepsPending f) :
    (s.regGate ok v off value f).pending = s.pending := by
  simp [State.regGate, hf.eq]
@[simp] theorem State.sendMsix_pending (s : State) (v : Nat) : (s.sendMsix v).pending = s.pending := by simp [State.sendMsix]
@[simp] theorem State.unmaskMsix_pending (s : State) : s.unmaskMsix.pending = s.pending := by simp [State.unmaskMsix]
@[simp] theorem State.postNow_pending (s : State) (r : Nat) (ws : Words) : (s.postNow r ws).pending = s.pending := by simp [State.postNow]
@[simp] theorem State.post_pending (s : State) (r : Nat) (ws : Words) : (s.post r ws).pending = s.pending := by simp [State.post]
@[simp] theorem State.event_pending (s : State) (kind m status plain : Nat) (tag : W32) (detail : Words) :
    (s.event kind m status plain tag detail).pending = s.pending := by
  simp [State.event]
@[simp] theorem State.fetchEntry_pending (s : State) (r : Nat) : (s.fetchEntry r).pending = s.pending := by simp [State.fetchEntry]
@[simp] theorem State.complete_pending (s : State) (r status : Nat) (detail : Words) :
    (s.complete r status detail).pending = s.pending := by
  simp only [State.complete]; split <;> simp
@[simp] theorem State.adminMsix_pending (s : State) : s.adminMsix.pending = s.pending := by simp [State.adminMsix]
@[simp] theorem State.adminEvent_pending (s : State) (kind status : Nat) (detail : Words) :
    (s.adminEvent kind status detail).pending = s.pending := by
  simp [State.adminEvent]
@[simp] theorem State.mscRead_pending (s : State) (who : Writer) (runs : List (Nat × Nat)) : (s.mscRead who runs).pending = s.pending := by
  simp [State.mscRead]
@[simp] theorem State.apply_pending (s : State) (who : Writer) (bs : List (Nat × Byte × Byte)) (bad : List Nat) :
    (s.apply who bs bad).pending = s.pending := by
  simp [State.apply]
@[simp] theorem State.write_pending (s : State) (who : Writer) (bs : List (Nat × Byte × Byte)) (bad : List Nat) :
    (s.write who bs bad).pending = s.pending := by
  simp [State.write]
@[simp] theorem State.setLinkState_pending (s : State) (n st : Nat) : (s.setLinkState n st).pending = s.pending := by
  simp [State.setLinkState]
@[simp] theorem State.putOn_pending (s : State) (n : Nat) (k : Packet) (arrived : Option Nat) :
    (s.putOn n k arrived).pending = s.pending := by
  simp [State.putOn]
@[simp] theorem State.sendFree_pending (s : State) (k : Packet) (arrived : Option Nat) : (s.sendFree k arrived).pending = s.pending := by
  simp only [State.sendFree]; split <;> simp
@[simp] theorem State.sendHeld_pending (s : State) (k : Packet) (owner : PkOwner) (fails : Nat) :
    (s.sendHeld k owner fails).pending = s.pending := by
  simp only [State.sendHeld]; split <;> simp
@[simp] theorem State.takeReq_snd_pending (s : State) : s.takeReq.2.pending = s.pending := by simp [State.takeReq]
@[simp] theorem State.sendStops_pending (s : State) : s.sendStops.pending = s.pending := by simp [State.sendStops]
@[simp] theorem State.ethCount_pending (s : State) (port k n : Nat) : (s.ethCount port k n).pending = s.pending := by simp [State.ethCount]
@[simp] theorem State.portSend_pending (s : State) (port prio : Nat) (o : EthOut) (frames : Nat) :
    (s.portSend port prio o frames).pending = s.pending := by
  simp [State.portSend]
@[simp] theorem State.ethSend_pending (s : State) (q : Nat) (o : EthOut) (frames : Nat) : (s.ethSend q o frames).pending = s.pending := by
  simp [State.ethSend]
@[simp] theorem State.unpause_pending (s : State) (port : Nat) : (s.unpause port).pending = s.pending := by simp [State.unpause]
@[simp] theorem State.sendAck_pending (s : State) (x : Ack) : (s.sendAck x).pending = s.pending := by
  simp only [State.sendAck]; split <;> simp
@[simp] theorem State.freePoison_snd_pending (s : State) (a : Nat) (bs : Bytes) (bad : Nat → Nat → Bool) :
    (s.freePoison a bs bad).2.pending = s.pending := by
  simp only [State.freePoison]; split <;> simp
@[simp] theorem State.drainBytes_snd_pending (s : State) (a n : Nat) : (s.drainBytes a n).2.pending = s.pending := by
  simp [State.drainBytes]
@[simp] theorem State.freeBytes_snd_pending (s : State) (n : Nat) : (s.freeBytes n).2.pending = s.pending := by simp [State.freeBytes]
@[simp] theorem State.answerRead_pending (s : State) (x : Nat × WinSrc × Nat) : (s.answerRead x).pending = s.pending := by
  simp only [State.answerRead]; split <;> simp
@[simp] theorem State.answerWin_pending (s : State) : s.answerWin.pending = s.pending := by simp [State.answerWin]
@[simp] theorem State.settleAcks_pending (s : State) : s.settleAcks.pending = s.pending := by simp [State.settleAcks]
@[simp] theorem State.writeAck_pending (s : State) (bs : List (Nat × Byte × Byte)) (bad : List Nat) (a : Ack) (m : Option Nat) :
    (s.writeAck bs bad a m).pending = s.pending := by
  simp [State.writeAck]
@[simp] theorem State.releasePage_pending (s : State) (page : Nat) : (s.releasePage page).pending = s.pending := by simp [State.releasePage]
@[simp] theorem State.markPage_pending (s : State) (page : Nat) : (s.markPage page).pending = s.pending := by simp [State.markPage]
@[simp] theorem State.cowEnd_pending (s : State) : s.cowEnd.pending = s.pending := by simp [State.cowEnd]
@[simp] theorem State.fieldWrite_pending (s : State) (c : Nat) (bs : List (Nat × Byte × Byte)) :
    (s.fieldWrite c bs).pending = s.pending := by
  simp [State.fieldWrite]
@[simp] theorem State.setTile_pending (s : State) (basin : Bool) (c t : Nat) (es : Words) :
    (s.setTile basin c t es).pending = s.pending := by
  simp [State.setTile]
@[simp] theorem State.setOpen_pending (s : State) (basin : Bool) (c base n : Nat) (o : Bool) :
    (s.setOpen basin c base n o).pending = s.pending := by
  simp [State.setOpen]
@[simp] theorem State.setHold_pending (s : State) (basin : Bool) (c t v : Nat) : (s.setHold basin c t v).pending = s.pending := by
  simp [State.setHold]
@[simp] theorem State.ckpRest_pending (s : State) : s.ckpRest.pending = s.pending := by simp [State.ckpRest]
@[simp] theorem State.freeArea_pending (s : State) (m : Nat) : (s.freeArea m).pending = s.pending := by simp [State.freeArea]
@[simp] theorem State.ckpAbandon_pending (s : State) (status : Nat) (event : Bool) : (s.ckpAbandon status event).pending = s.pending := by
  simp only [State.ckpAbandon]
  split
  · simp
  · split <;> simp
@[simp] theorem State.setCtxState_pending (s : State) (m : Nat) (st : CtxState) : (s.setCtxState m st).pending = s.pending := by
  simp [State.setCtxState]
@[simp] theorem State.stopPlain_pending (s : State) (p : Nat) (tag : Option W32) : (s.stopPlain p tag).pending = s.pending := by
  simp [State.stopPlain]
@[simp] theorem State.frozenEvents_pending (s : State) (cause : Nat) : (s.frozenEvents cause).pending = s.pending := by
  simp [State.frozenEvents]
@[simp] theorem State.freeze_pending (s : State) (cause dev : Nat) : (s.freeze cause dev).pending = s.pending := by simp [State.freeze]
@[simp] theorem State.recordPlain_pending (s : State) (p code : Nat) (tag : W32) (stream : Bool) :
    (s.recordPlain p code tag stream).pending = s.pending := by
  simp [State.recordPlain]
@[simp] theorem State.haltCtx_pending (s : State) (m code : Nat) (faulty : Option (Nat × W32)) (tag : W32) :
    (s.haltCtx m code faulty tag).pending = s.pending := by
  simp [State.haltCtx]
@[simp] theorem State.sweepSlots_pending (s : State) : s.sweepSlots.pending = s.pending := by simp [State.sweepSlots]
@[simp] theorem State.abandonFrom_pending (s : State) (p id : Nat) : (s.abandonFrom p id).pending = s.pending := by simp [State.abandonFrom]
@[simp] theorem State.fault_pending (s : State) (p code : Nat) (tag next : W32) (stream : Bool) (cls idx extra : Nat) :
    (s.fault p code tag next stream cls idx extra).pending = s.pending := by
  simp only [State.fault]
  repeat' split
  all_goals simp
@[simp] theorem State.issueFault_pending (s : State) (p code : Nat) (extra : Nat) : (s.issueFault p code extra).pending = s.pending := by
  simp [State.issueFault]
@[simp] theorem State.recordCore_pending (s : State) (c code : Nat) (tag : W32) (tile : Option Nat) :
    (s.recordCore c code tag tile).pending = s.pending := by
  simp [State.recordCore]
@[simp] theorem State.issueFaultCore_pending (s : State) (p c code : Nat) (tile : Option Nat) (extra : Nat) :
    (s.issueFaultCore p c code tile extra).pending = s.pending := by
  simp [State.issueFaultCore]
@[simp] theorem State.faultIssued_pending (s : State) (p : Nat) (i : Issued) (c code : Nat) :
    (s.faultIssued p i c code).pending = s.pending := by
  simp [State.faultIssued]
@[simp] theorem State.faultJob_pending (s : State) (p : Nat) (j : Job) (code : Nat) (extra : Nat) :
    (s.faultJob p j code extra).pending = s.pending := by
  simp [State.faultJob]

/-! ### What resets clear (Clear) -/

@[simp] theorem State.clearCore_pending (s : State) (c : Nat) : (s.clearCore c).pending = s.pending := by simp [State.clearCore]
@[simp] theorem State.clearHandles_pending (s : State) (m : Nat) : (s.clearHandles m).pending = s.pending := by simp [State.clearHandles]
@[simp] theorem State.clearChip_pending (s : State) (m : Nat) : (s.clearChip m).pending = s.pending := by simp [State.clearChip]

/-! ### Queue pairs and transfers (EthOps) -/

@[simp] theorem State.setQp_pending (s : State) (q : Nat) (x : Qp) : (s.setQp q x).pending = s.pending := by simp [State.setQp]
@[simp] theorem State.setQpWord_pending (s : State) (q i : Nat) (w : W32) : (s.setQpWord q i w).pending = s.pending := by
  simp [State.setQpWord]
@[simp] theorem State.setQpState_pending (s : State) (q st : Nat) : (s.setQpState q st).pending = s.pending := by simp [State.setQpState]
@[simp] theorem State.movePsn_pending (s : State) (q i n : Nat) : (s.movePsn q i n).pending = s.pending := by simp [State.movePsn]
@[simp] theorem State.sendXfer_pending (s : State) (q : Nat) (t : Xfer) : (s.sendXfer q t).pending = s.pending := by
  simp only [State.sendXfer]
  split
  · split <;> simp
  · simp
@[simp] theorem State.startXfer_pending (s : State) (q : Nat) (t : Xfer) : (s.startXfer q t).pending = s.pending := by
  simp [State.startXfer]

/-! ### Copy-on-write, the scrubber, failures of memory (Mem) -/

@[simp] theorem State.copyPage_pending (s : State) (page slot : Nat) : (s.copyPage page slot).pending = s.pending := by
  simp [State.copyPage]
@[simp] theorem execCowPageCopy_keepsQueue (s : State) : KeepsQueue s (execCowPageCopy s) := by
  simp only [execCowPageCopy, keepsQueue_next]
  repeat' split
  all_goals simp
@[simp] theorem execCowPoolWaitEnd_keepsQueue (slot : Nat) (s : State) : KeepsQueue s (execCowPoolWaitEnd slot s) :=
  ⟨_, rfl, by split <;> simp⟩
theorem State.cowStart_pending (s : State) (m : Nat) {u : State} (h : s.cowStart m = some u) : u.pending = s.pending := by
  simp only [State.cowStart] at h
  split at h
  · cases h
  · cases h
    simp
@[simp] theorem State.cowSet_pending (s : State) (v m : Nat) : (s.cowSet v m).pending = s.pending := by
  have start : ∀ t, s.cowStart m = some t → t.pending = s.pending := fun t => State.cowStart_pending s m
  simp only [State.cowSet]
  cases h : s.cowStart m with
  | none => simp
  | some t => simp [start t h]
@[simp] theorem execCowActiveSet_keepsQueue (ctx : Fin 16) (s : State) : KeepsQueue s (execCowActiveSet ctx s) := by simp [execCowActiveSet]
@[simp] theorem State.cowClear_pending (s : State) (v m : Nat) : (s.cowClear v m).pending = s.pending := by simp [State.cowClear]
@[simp] theorem execCowActiveClear_keepsQueue (ctx : Fin 16) (s : State) : KeepsQueue s (execCowActiveClear ctx s) := by
  simp [execCowActiveClear]
@[simp] theorem State.poisonLine_pending (s : State) (l : Nat) : (s.poisonLine l).pending = s.pending := by simp [State.poisonLine]
@[simp] theorem execScrubFull_keepsQueue (s : State) : KeepsQueue s (execScrubFull s) := by simp [execScrubFull]
@[simp] theorem State.mscError_pending (s : State) (a : Nat) : (s.mscError a).pending = s.pending := by
  simp only [State.mscError]; split <;> simp
@[simp] theorem execScrubLine_keepsQueue (addr : W64) (o : LineObs) (s : State) : KeepsQueue s (execScrubLine addr o s) :=
  ⟨_, rfl, by split <;> simp⟩
@[simp] theorem execScrubPassEnd_keepsQueue (full : Bool) (s : State) : KeepsQueue s (execScrubPassEnd full s) := by simp [execScrubPassEnd]
@[simp] theorem execEccRateCheck_keepsQueue (s : State) : KeepsQueue s (execEccRateCheck s) := by simp [execEccRateCheck]
@[simp] theorem State.refresh_pending (s : State) (off lsb : Nat) (t : BitVec 8) : (s.refresh off lsb t).pending = s.pending := by
  simp [State.refresh]
@[simp] theorem execHbmTempHigh_keepsQueue (n : Fin 12) (tempC : BitVec 8) (s : State) : KeepsQueue s (execHbmTempHigh n tempC s) := by
  simp [execHbmTempHigh]
@[simp] theorem execHbmTempNormal_keepsQueue (n : Fin 12) (tempC : BitVec 8) (s : State) : KeepsQueue s (execHbmTempNormal n tempC s) := by
  simp [execHbmTempNormal]
@[simp] theorem execDdrTempHigh_keepsQueue (n : Fin 8) (tempC : BitVec 8) (s : State) : KeepsQueue s (execDdrTempHigh n tempC s) := by
  simp [execDdrTempHigh]
@[simp] theorem execDdrTempNormal_keepsQueue (n : Fin 8) (tempC : BitVec 8) (s : State) : KeepsQueue s (execDdrTempNormal n tempC s) := by
  simp [execDdrTempNormal]
@[simp] theorem execHbmStackFail_keepsQueue (n : Fin 12) (s : State) : KeepsQueue s (execHbmStackFail n s) := by simp [execHbmStackFail]
@[simp] theorem execD2dRetryLimit_keepsQueue (s : State) : KeepsQueue s (execD2dRetryLimit s) := by simp [execD2dRetryLimit]

/-! ### Issue (Issue) -/

@[simp] theorem State.addP_pending (s : State) (p word n : Nat) : (s.addP p word n).pending = s.pending := by simp [State.addP]
@[simp] theorem State.advance_pending (s : State) (p : Nat) : (s.advance p).pending = s.pending := by simp [State.advance]
@[simp] theorem State.place_pending (s : State) (p m : Nat) (runs : List TileRun) (gens : List (Nat × Nat)) :
    (s.place p m runs gens).pending = s.pending := by
  simp only [State.place]
  split
  · simp
  · simp only [State.advance_pending, State.setPlain_pending]
    exact State.foldl_pending _ (fun _ _ => State.foldl_pending _ (fun _ _ => by simp) _ _) _ _
@[simp] theorem State.issueTile_pending (s : State) (p : Nat) (d : TileSpec) (extra : List (Nat × Nat)) :
    (s.issueTile p d extra).pending = s.pending := by
  simp only [State.issueTile]
  split
  · simp
  · split <;> simp
@[simp] theorem State.takeBreak_pending (s : State) : s.takeBreak.pending = s.pending := by simp [State.takeBreak]
@[simp] theorem State.breakAfter_pending (s : State) (m : Nat) (ws : Words) : (s.breakAfter m ws).pending = s.pending := by
  simp [State.breakAfter]
@[simp] theorem State.reach_pending (s : State) (p type : Nat) (k : State → Nat → Words → State) (hk : ∀ m ws, KeepsPending fun t => k t m ws) :
    (s.reach p type k).pending = s.pending := by
  simp only [State.reach]
  split
  · simp [(hk _ _).eq]
  · rfl

/-! ### MATMUL and PREFETCH (Matmul) -/

@[simp] theorem execMatmul_keepsQueue (p : Fin 16) (s : State) : KeepsQueue s (execMatmul p s) := by simp [execMatmul]
@[simp] theorem execPrefetch_keepsQueue (p : Fin 16) (s : State) : KeepsQueue s (execPrefetch p s) := by simp [execPrefetch]

/-! ### DRAIN (Drain) -/

@[simp] theorem execDrain_keepsQueue (p : Fin 16) (s : State) : KeepsQueue s (execDrain p s) := by simp [execDrain]

/-! ### WGRAD, norms and sums (Backward) -/

@[simp] theorem execWgrad_keepsQueue (p : Fin 16) (s : State) : KeepsQueue s (execWgrad p s) := by simp [execWgrad]
@[simp] theorem execTileLoad_keepsQueue (p : Fin 16) (s : State) : KeepsQueue s (execTileLoad p s) := by simp [execTileLoad]
@[simp] theorem execNormFwd_keepsQueue (p : Fin 16) (s : State) : KeepsQueue s (execNormFwd p s) := by simp [execNormFwd]
@[simp] theorem execNormBwd_keepsQueue (p : Fin 16) (s : State) : KeepsQueue s (execNormBwd p s) := by simp [execNormBwd]
@[simp] theorem execStatSum_keepsQueue (p : Fin 16) (s : State) : KeepsQueue s (execStatSum p s) := by simp [execStatSum]

/-! ### Attention (Attn) -/

@[simp] theorem execAttnFwd_keepsQueue (p : Fin 16) (s : State) : KeepsQueue s (execAttnFwd p s) := by simp [execAttnFwd]
@[simp] theorem execAttnBwd_keepsQueue (p : Fin 16) (s : State) : KeepsQueue s (execAttnBwd p s) := by simp [execAttnBwd]
@[simp] theorem execAttnMerge_keepsQueue (p : Fin 16) (s : State) : KeepsQueue s (execAttnMerge p s) := by simp [execAttnMerge]

/-! ### DMA and page walks (Dma) -/

@[simp] theorem State.placeJob_pending (s : State) (p m : Nat) (coll : Bool) : (s.placeJob p m coll).pending = s.pending := by
  simp [State.placeJob]
@[simp] theorem execDma_keepsQueue (p : Fin 16) (s : State) : KeepsQueue s (execDma p s) :=
  ⟨_, rfl, State.reach_pending _ _ _ _ fun m ws t => by
    dsimp only
    split <;> simp⟩
@[simp] theorem State.freeOut_snd_pending (s : State) (m : Option Nat) (bs : List (Nat × Byte × Byte)) :
    (s.freeOut m bs).2.pending = s.pending := by
  simp [State.freeOut]
@[simp] theorem State.freeField_pending (s : State) (c : Nat) (bs : List (Nat × Byte × Byte)) : (s.freeField c bs).pending = s.pending := by
  simp [State.freeField]
@[simp] theorem State.freeP_pending (s : State) (p : Nat) (ks : List Nat) : (s.freeP p ks).pending = s.pending := by simp [State.freeP]
@[simp] theorem State.sendPieces_pending (s : State) (ptype vc dst runTag epoch : Nat) (evseq : W32) (a : Nat) (data : Bytes) (bad : List Nat) (o : PkOwner) :
    (s.sendPieces ptype vc dst runTag epoch evseq a data bad o).pending = s.pending := by
  simp [State.sendPieces]
@[simp] theorem State.dmaMove_pending (s : State) (p m : Nat) (j : Job) : (s.dmaMove p m j).pending = s.pending := by simp [State.dmaMove]
@[simp] theorem State.dmaStop_pending (s : State) (p m : Nat) (j : Job) (code : Nat) : (s.dmaStop p m j code).pending = s.pending := by
  simp [State.dmaStop]
@[simp] theorem State.setJob_pending (s : State) (p : Nat) (j : Job) : (s.setJob p j).pending = s.pending := by simp [State.setJob]
@[simp] theorem State.endJob_pending (s : State) (p id : Nat) : (s.endJob p id).pending = s.pending := by simp [State.endJob]
@[simp] theorem State.jobBreak_pending (s : State) (p : Nat) (j : Job) : (s.jobBreak p j).pending = s.pending := by
  simp only [State.jobBreak]
  split
  · simp
  · split <;> simp
@[simp] theorem State.dmaFinish_pending (s : State) (p : Nat) (j : Job) : (s.dmaFinish p j).pending = s.pending := by simp [State.dmaFinish]
@[simp] theorem State.dmaEcc_pending (s : State) (p m : Nat) (j : Job) : (s.dmaEcc p m j).pending = s.pending := by simp [State.dmaEcc]
@[simp] theorem execDmaEnd_keepsQueue (p : Fin 16) (o : DmaObs) (s : State) : KeepsQueue s (execDmaEnd p o s) := by
  simp only [execDmaEnd, keepsQueue_next]
  repeat' split
  all_goals simp
@[simp] theorem execPageWalk_keepsQueue (p : Fin 16) (s : State) : KeepsQueue s (execPageWalk p s) :=
  ⟨_, rfl, State.reach_pending _ _ _ _ fun m ws t => by
    dsimp only
    split <;> simp⟩
@[simp] theorem execPageWalkEntriesRead_keepsQueue (p : Fin 16) (s : State) : KeepsQueue s (execPageWalkEntriesRead p s) := by
  simp only [execPageWalkEntriesRead, keepsQueue_next]
  repeat' split
  all_goals simp

/-! ### Core commands (CoreCmd) -/

@[simp] theorem State.trace_pending (s : State) (m : Nat) (r : Words) (plain : Bool) : (s.trace m r plain).pending = s.pending := by
  fun_cases State.trace <;> simp +zetaDelta
@[simp] theorem State.addStalls_pending (s : State) (path : Nat) (r : Words) : (s.addStalls path r).pending = s.pending := by
  simp [State.addStalls]
@[simp] theorem State.copyRecord_pending (s : State) (p pos : Nat) (ws : Words) (stopped : Bool) (counters : Words) :
    (s.copyRecord p pos ws stopped counters).pending = s.pending := by
  simp only [State.copyRecord]; split <;> simp
@[simp] theorem State.runCounters_snd_pending (s : State) (i : Issued) (r : CoreRun) : (s.runCounters i r).2.pending = s.pending := by
  simp only [State.runCounters]
  split
  · split <;> simp
  · simp
@[simp] theorem State.applyTiles_pending (s : State) (c : Nat) (ts : List (Bool × Nat × Words)) :
    (s.applyTiles c ts).pending = s.pending := by
  simp [State.applyTiles]
@[simp] theorem State.freeTiles_pending (s : State) (c : Nat) (ts : List (Bool × Nat)) : (s.freeTiles c ts).pending = s.pending := by
  simp [State.freeTiles]
@[simp] theorem State.addHist_pending (s : State) (p id : Nat) (l : List (Nat × Nat)) : (s.addHist p id l).pending = s.pending := by
  simp [State.addHist]
@[simp] theorem State.addStats_pending (s : State) (p id : Nat) (l : List (Nat × W32)) : (s.addStats p id l).pending = s.pending := by
  simp [State.addStats]
@[simp] theorem State.applyEff_pending (s : State) (p id c : Nat) (e : Eff) : (s.applyEff p id c e).pending = s.pending := by
  simp [State.applyEff]
@[simp] theorem State.applyStop_pending (s : State) (m c : Nat) (e : Eff) (finished : Bool) :
    (s.applyStop m c e finished).pending = s.pending := by
  simp [State.applyStop]
@[simp] theorem State.setIssued_pending (s : State) (p : Nat) (i : Issued) : (s.setIssued p i).pending = s.pending := by
  simp [State.setIssued]
@[simp] theorem State.stopRecord_pending (s : State) (p : Nat) (i : Issued) (q : CoreRun) : (s.stopRecord p i q).pending = s.pending := by
  simp only [State.stopRecord]; split <;> simp
@[simp] theorem State.stopRun_pending (s : State) (p m pos : Nat) (i : Issued) (code : Nat) :
    (s.stopRun p m pos i code).pending = s.pending := by
  simp [State.stopRun]
@[simp] theorem execCoreCmdStart_keepsQueue (p c : Fin 16) (ecc : CoreEcc) (s : State) : KeepsQueue s (execCoreCmdStart p c ecc s) := by
  simp only [execCoreCmdStart, keepsQueue_next]
  repeat' split
  all_goals simp
@[simp] theorem execSpecMapCheck_keepsQueue (p : Fin 16) (o : CoreObs) (s : State) : KeepsQueue s (execSpecMapCheck p o s) := by
  simp only [execSpecMapCheck, keepsQueue_next]
  repeat' split
  all_goals simp
@[simp] theorem execSpecCommit_keepsQueue (p c : Fin 16) (s : State) : KeepsQueue s (execSpecCommit p c s) := by
  simp only [execSpecCommit, keepsQueue_next]
  repeat' split
  all_goals simp
@[simp] theorem execRankExchange_keepsQueue (p : Fin 16) (o : RankObs) (s : State) : KeepsQueue s (execRankExchange p o s) := by
  simp only [execRankExchange, keepsQueue_next]
  repeat' split
  all_goals simp
@[simp] theorem execTileCmdEnd_keepsQueue (p : Fin 16) (id : Nat) (s : State) : KeepsQueue s (execTileCmdEnd p id s) :=
  ⟨_, rfl, by split <;> simp⟩
@[simp] theorem execBgPrefetchPromote_keepsQueue (_p : Fin 16) (_id : Nat) (s : State) : KeepsQueue s (execBgPrefetchPromote _p _id s) :=
  ⟨_, rfl, rfl⟩

/-! ### Contexts (Sched) -/

@[simp] theorem State.refuseState_pending (s : State) (m : Nat) : (s.refuseState m).pending = s.pending := by simp [State.refuseState]
@[simp] theorem State.clearObjs_pending (s : State) (m : Nat) : (s.clearObjs m).pending = s.pending := by simp [State.clearObjs]
@[simp] theorem State.armWith_pending (s : State) (m : Nat) (tag : BitVec 16) (a : Nat) (first count : W32) (seed : W64) (i : Image) (verify : Option Bytes) :
    (s.armWith m tag a first count seed i verify).pending = s.pending := by
  simp [State.armWith]
@[simp] theorem State.arm_snd_pending (s : State) (m : Nat) (r : Words) : (s.arm m r).2.pending = s.pending := by
  simp only [State.arm]
  split
  · simp
  · split
    · simp
    · split <;> simp
@[simp] theorem State.startPcc_pending (s : State) (p : Nat) (prologue : Bool) : (s.startPcc p prologue).pending = s.pending := by
  simp [State.startPcc]
@[simp] theorem State.clearP_pending (s : State) (p : Nat) : (s.clearP p).pending = s.pending := by simp [State.clearP]
@[simp] theorem State.startPlain_pending (s : State) (p : Nat) (prologue : Bool) : (s.startPlain p prologue).pending = s.pending := by
  simp [State.startPlain]
@[simp] theorem State.startCtx_snd_pending (s : State) (m : Nat) : (s.startCtx m).2.pending = s.pending := by
  simp only [State.startCtx]
  split
  · simp
  · split <;> simp
@[simp] theorem State.disarmCtx_snd_pending (s : State) (m : Nat) : (s.disarmCtx m).2.pending = s.pending := by
  simp only [State.disarmCtx]
  split
  · simp
  · split <;> simp
@[simp] theorem State.pauseCtx_pending (s : State) (m : Nat) (v : Bool) : (s.pauseCtx m v).pending = s.pending := by simp [State.pauseCtx]
@[simp] theorem execSchCtxCtrlStart_keepsQueue (v : Nat) (m : Fin 16) (pause : Bool) (s : State) :
    KeepsQueue s (execSchCtxCtrlStart v m pause s) := by
  simp [execSchCtxCtrlStart]
@[simp] theorem execSchCtxCtrlDisarm_keepsQueue (v : Nat) (m : Fin 16) (pause : Bool) (s : State) :
    KeepsQueue s (execSchCtxCtrlDisarm v m pause s) := by
  simp [execSchCtxCtrlDisarm]
@[simp] theorem execSchCtxCtrlPause_keepsQueue (v : Nat) (m : Fin 16) (pause : Bool) (s : State) :
    KeepsQueue s (execSchCtxCtrlPause v m pause s) := by
  simp [execSchCtxCtrlPause]

/-! ### The PCC (Pcc) -/

@[simp] theorem State.streamFault_pending (s : State) (p m code : Nat) (a off n : Nat) :
    (s.streamFault p m code a off n).pending = s.pending := by
  simp [State.streamFault]
@[simp] theorem State.streamOver_pending (s : State) (p : Nat) : (s.streamOver p).pending = s.pending := by simp [State.streamOver]
@[simp] theorem execStreamFetchEnd_keepsQueue (p : Fin 16) (s : State) : KeepsQueue s (execStreamFetchEnd p s) := by
  simp only [execStreamFetchEnd, keepsQueue_next]
  repeat' split
  all_goals simp
@[simp] theorem execIssueFullEnd_keepsQueue (p : Fin 16) (s : State) : KeepsQueue s (execIssueFullEnd p s) := ⟨_, rfl, by split <;> simp⟩
@[simp] theorem State.pccDone_pending (s : State) (p m : Nat) (ws : Words) : (s.pccDone p m ws).pending = s.pending := by
  simp [State.pccDone]
@[simp] theorem State.sendSignal_pending (s : State) (p m : Nat) (ws : Words) : (s.sendSignal p m ws).pending = s.pending := by
  simp [State.sendSignal]
@[simp] theorem execSignal_keepsQueue (p : Fin 16) (s : State) : KeepsQueue s (execSignal p s) :=
  ⟨_, rfl, State.reach_pending _ _ _ _ fun m ws t => by
    dsimp only
    split <;> simp⟩
@[simp] theorem execFenceMet_keepsQueue (p : Fin 16) (s : State) : KeepsQueue s (execFenceMet p s) := ⟨_, rfl, by split <;> simp⟩
@[simp] theorem State.startWait_pending (s : State) (p m : Nat) (ws : Words) : (s.startWait p m ws).pending = s.pending := by
  simp [State.startWait]
@[simp] theorem execWait_keepsQueue (p : Fin 16) (s : State) : KeepsQueue s (execWait p s) := by simp [execWait]
@[simp] theorem execWaitDone_keepsQueue (p : Fin 16) (s : State) : KeepsQueue s (execWaitDone p s) := by
  simp only [execWaitDone, keepsQueue_next]
  repeat' split
  all_goals simp
@[simp] theorem State.tableDone_pending (s : State) (p m : Nat) (ws : Words) : (s.tableDone p m ws).pending = s.pending := by
  simp [State.tableDone]
@[simp] theorem State.installTable_pending (s : State) (p m : Nat) (ws : Words) (table : Bytes) :
    (s.installTable p m ws table).pending = s.pending := by
  fun_cases State.installTable <;>
    simp +zetaDelta only [State.issueFault_pending, State.write_pending, State.tableDone_pending, State.sweepSlots_pending]
@[simp] theorem execCmpTable_keepsQueue (p : Fin 16) (s : State) : KeepsQueue s (execCmpTable p s) :=
  ⟨_, rfl, State.reach_pending _ _ _ _ fun m ws t => by
    dsimp only
    split
    · simp
    · split <;> simp⟩
@[simp] theorem execCmpTableSlotWaitEnd_keepsQueue (p : Fin 16) (s : State) : KeepsQueue s (execCmpTableSlotWaitEnd p s) :=
  ⟨_, rfl, by split <;> simp⟩
@[simp] theorem State.requestSnap_pending (s : State) (m tiers : Nat) : (s.requestSnap m tiers).pending = s.pending := by
  simp [State.requestSnap]
@[simp] theorem execSnapshot_keepsQueue (p : Fin 16) (s : State) : KeepsQueue s (execSnapshot p s) := by simp [execSnapshot]

/-! ### Ring entries (Ring) -/

@[simp] theorem State.takeEntry_pending (s : State) (r : Nat) (e : Words) : (s.takeEntry r e).pending = s.pending := by
  simp [State.takeEntry]
@[simp] theorem State.ring_pending (s : State) (r : Nat) (e : Words) (op : Nat) (ok : Bool) (masks : List (Nat × Nat)) (first : Nat) (f : State → State) (hf : KeepsPending f) :
    (s.ring r e op ok masks first f).pending = s.pending := by
  simp [State.ring, hf.eq]

/-! ### Checkpoint and restore (Ckp) -/

@[simp] theorem State.ckpEvent_pending (s : State) (kind m status : Nat) (step detail : W32) :
    (s.ckpEvent kind m status step detail).pending = s.pending := by
  simp [State.ckpEvent]
@[simp] theorem State.partnerAccess_pending (s : State) (write : Bool) (off len : Nat) (data : Bytes) :
    (s.partnerAccess write off len data).pending = s.pending := by
  simp [State.partnerAccess]
@[simp] theorem State.flashPut_pending (s : State) (a : Nat) (bs : Bytes) : (s.flashPut a bs).pending = s.pending := by
  simp [State.flashPut]
@[simp] theorem State.flashTorn_pending (s : State) (x : TierReq) : (s.flashTorn x).pending = s.pending := by simp [State.flashTorn]
@[simp] theorem State.flashDone_pending (s : State) : s.flashDone.pending = s.pending := by simp [State.flashDone]
@[simp] theorem State.flashCut_pending (s : State) : s.flashCut.pending = s.pending := by simp [State.flashCut]
theorem State.tierAccess_pending (s : State) (t : Nat) (write : Bool) (off len : Nat) (data : Bytes) (q : Nat) {u : State} (h : s.tierAccess t write off len data q = some u) :
    u.pending = s.pending := by
  simp only [State.tierAccess] at h
  split at h
  · split at h <;> simp at h
    simp [← h]
  · split at h
    · split at h <;> simp at h
      simp [← h]
    · generalize (if q = 0 then bits (s.reg 0x88044) 8 0 else bits (s.reg 0x88044) 24 16) = n at h
      split at h <;> simp at h
      simp [← h]
@[simp] theorem State.keep_pending (s : State) (t off : Nat) (bs : Bytes) : (s.keep t off bs).pending = s.pending := by simp [State.keep]
@[simp] theorem State.forget_pending (s : State) (t off len : Nat) : (s.forget t off len).pending = s.pending := by simp [State.forget]
@[simp] theorem State.putArea_pending (s : State) (a n : Nat) (es : List (Nat × Byte)) : (s.putArea a n es).pending = s.pending := by
  simp [State.putArea]
@[simp] theorem State.fillArea_pending (s : State) (m : Nat) (h : Words) : (s.fillArea m h).pending = s.pending := by simp [State.fillArea]
@[simp] theorem State.findSlots_pending (s : State) (x : List Nat) : (s.findSlots x).pending = s.pending := by
  induction x generalizing s with
  | nil => rfl
  | cons t r ih =>
    simp only [State.findSlots]
    split
    · exact ih s
    · split
      · simp [ih]
      · split
        · next h => rw [ih, State.tierAccess_pending _ _ _ _ _ _ _ h]
        · simp
@[simp] theorem State.writeTiers_pending (s : State) (f : Nat × Nat × W32 → Nat × Bytes) (q : Nat) (x : List (Nat × Nat × W32)) :
    (s.writeTiers f q x).pending = s.pending := by
  induction x generalizing s with
  | nil => rfl
  | cons x r ih =>
    simp only [State.writeTiers]
    split
    · next h => rw [ih, State.tierAccess_pending _ _ _ _ _ _ _ h]
    · simp
@[simp] theorem State.drainPiece_pending (s : State) (a n off : Nat) : (s.drainPiece a n off).pending = s.pending := by
  simp only [State.drainPiece]; split <;> simp
@[simp] theorem State.endRead_pending (s : State) : s.endRead.pending = s.pending := by simp [State.endRead]
@[simp] theorem State.drainRead_pending (s : State) : s.drainRead.pending = s.pending := by
  simp only [State.drainRead]
  repeat' split
  all_goals simp
@[simp] theorem State.startRoots_pending (s : State) : s.startRoots.pending = s.pending := by simp [State.startRoots]
@[simp] theorem State.prepared_pending (s : State) : s.prepared.pending = s.pending := by simp [State.prepared]
@[simp] theorem State.committed_pending (s : State) : s.committed.pending = s.pending := by simp only [State.committed]; split <;> simp
@[simp] theorem execCkpPrepare_keepsQueue (s : State) : KeepsQueue s (execCkpPrepare s) := by simp [execCkpPrepare]
@[simp] theorem State.restoreEnd_pending (s : State) (status : Nat) : (s.restoreEnd status).pending = s.pending := by
  simp only [State.restoreEnd]; split <;> simp
@[simp] theorem State.restoreCut_pending (s : State) : s.restoreCut.pending = s.pending := by simp only [State.restoreCut]; split <;> simp
@[simp] theorem State.restoreAbandon_pending (s : State) : s.restoreAbandon.pending = s.pending := by simp [State.restoreAbandon]
@[simp] theorem State.placeRanges_pending (s : State) (off : Nat) (bs : Bytes) (x : List (Nat × Nat)) (y : Nat) :
    (s.placeRanges off bs x y).pending = s.pending := by
  induction x generalizing s y with
  | nil => rfl
  | cons b r ih => simp [State.placeRanges, ih]
@[simp] theorem State.loadCore_pending (s : State) (c a : Nat) : (s.loadCore c a).pending = s.pending := by simp [State.loadCore]
@[simp] theorem State.loadHandles_pending (s : State) (m : Nat) : (s.loadHandles m).pending = s.pending := by simp [State.loadHandles]
@[simp] theorem State.restoreArm_pending (s : State) : s.restoreArm.pending = s.pending := by
  fun_cases State.restoreArm <;> simp +zetaDelta
@[simp] theorem State.loadNext_pending (s : State) : s.loadNext.pending = s.pending := by
  simp only [State.loadNext]
  split
  · rfl
  · split
    · simp
    · split
      · next h => exact State.tierAccess_pending _ _ _ _ _ _ _ h
      · simp
@[simp] theorem State.loadStep_pending (s : State) : s.loadStep.pending = s.pending := by
  fun_cases State.loadStep
  case case4 => rw [State.loadNext_pending, State.placeRanges_pending, State.setCkp_pending, State.forget_pending]
  all_goals simp
@[simp] theorem State.restoreCheck_pending (s : State) : s.restoreCheck.pending = s.pending := by
  fun_cases State.restoreCheck <;> simp +zetaDelta
  all_goals
    intro
    split
    · next h => exact State.tierAccess_pending _ _ _ _ _ _ _ h
    · simp
@[simp] theorem State.restoreFind_pending (s : State) (status : Nat) (x : List Nat) : (s.restoreFind status x).pending = s.pending := by
  induction x generalizing s status with
  | nil => simp [State.restoreFind]
  | cons t r ih =>
    simp only [State.restoreFind]
    split
    · simp
    · split
      · split
        · next h => simp [State.tierAccess_pending _ _ _ _ _ _ _ h]
        · simp [ih]
      · split
        · simp [ih]
        · simp
@[simp] theorem State.ckpAdvance_pending (s : State) : s.ckpAdvance.pending = s.pending := by simp only [State.ckpAdvance]; split <;> simp
@[simp] theorem State.ckpFail_pending (s : State) (status : Nat) : (s.ckpFail status).pending = s.pending := by
  simp only [State.ckpFail]; split <;> simp
@[simp] theorem State.tierAnswer_pending (s : State) (f : TierReq → Bool) (data : Bytes) : (s.tierAnswer f data).pending = s.pending := by
  simp only [State.tierAnswer]; split <;> simp
@[simp] theorem execFlashAccessComplete_keepsQueue (ok : Bool) (s : State) : KeepsQueue s (execFlashAccessComplete ok s) := by
  simp only [execFlashAccessComplete, keepsQueue_next]
  repeat' split
  all_goals simp
@[simp] theorem State.takeSnap_pending (s : State) (m tiers : Nat) : (s.takeSnap m tiers).pending = s.pending := by
  simp only [State.takeSnap]
  split
  · simp
  · split
    · simp
    · next h => simp [State.cowStart_pending _ _ h]
@[simp] theorem State.endStop_pending (s : State) : s.endStop.pending = s.pending := by simp [State.endStop]
@[simp] theorem State.readVerify_pending (s : State) (m : Nat) : (s.readVerify m).pending = s.pending := by
  simp only [State.readVerify]
  split
  · split <;> simp -implicitDefEqProofs
  · rfl
@[simp] theorem State.snapBoundary_pending (s : State) (m : Nat) : (s.snapBoundary m).pending = s.pending := by simp [State.snapBoundary]
@[simp] theorem State.verifyStep_pending (s : State) (m : Nat) : (s.verifyStep m).pending = s.pending := by
  fun_cases State.verifyStep <;> simp +zetaDelta -implicitDefEqProofs
@[simp] theorem execSnapRequest_keepsQueue (r : Fin 17) (e : Words) (s : State) : KeepsQueue s (execSnapRequest r e s) := by
  simp [execSnapRequest]
@[simp] theorem execCkpCommit_keepsQueue (r : Fin 17) (e : Words) (s : State) : KeepsQueue s (execCkpCommit r e s) := by
  simp [execCkpCommit]
@[simp] theorem execCkpRestore_keepsQueue (r : Fin 17) (e : Words) (s : State) : KeepsQueue s (execCkpRestore r e s) := by
  simp [execCkpRestore]

/-! ### The host (Host) -/

@[simp] theorem State.movePair_pending (s : State) (r : Nat) (st : PairState) (code : Nat) :
    (s.movePair r st code).pending = s.pending := by
  simp [State.movePair]
@[simp] theorem State.stopPair_pending (s : State) (r code : Nat) : (s.stopPair r code).pending = s.pending := by simp [State.stopPair]
@[simp] theorem State.enablePair_pending (s : State) (r : Nat) : (s.enablePair r).pending = s.pending := by simp [State.enablePair]
@[simp] theorem State.disablePair_pending (s : State) (r : Nat) : (s.disablePair r).pending = s.pending := by simp [State.disablePair]
@[simp] theorem State.abandonCopy_pending (s : State) (r : Nat) : (s.abandonCopy r).pending = s.pending := by
  simp only [State.abandonCopy]; split <;> simp
@[simp] theorem State.detachPair_pending (s : State) (r : Nat) : (s.detachPair r).pending = s.pending := by simp [State.detachPair]
@[simp] theorem State.pairEn_pending (s : State) (r : Nat) (en : Bool) : (s.pairEn r en).pending = s.pending := by simp [State.pairEn]
@[simp] theorem execHifPairCtrlEn_keepsQueue (v : Nat) (r : Fin 17) (en : Bool) (s : State) :
    KeepsQueue s (execHifPairCtrlEn v r en s) := by
  simp [execHifPairCtrlEn]
@[simp] theorem execHifPairCtrlDetach_keepsQueue (v : Nat) (r : Fin 17) (s : State) : KeepsQueue s (execHifPairCtrlDetach v r s) := by
  simp [execHifPairCtrlDetach]
@[simp] theorem execHostReadTimeout_keepsQueue (r : Fin 17) (s : State) : KeepsQueue s (execHostReadTimeout r s) := by
  simp [execHostReadTimeout]
@[simp] theorem State.linkLost_pending (s : State) : s.linkLost.pending = s.pending := by simp [State.linkLost]
@[simp] theorem execPcieLinkDown_keepsQueue (s : State) : KeepsQueue s (execPcieLinkDown s) := by simp [execPcieLinkDown]
@[simp] theorem State.hostReset_pending (s : State) (ras : Bool) : (s.hostReset ras).pending = s.pending := by simp [State.hostReset]
@[simp] theorem execFunctionLevelReset_keepsQueue (s : State) : KeepsQueue s (execFunctionLevelReset s) := by simp [execFunctionLevelReset]
@[simp] theorem execPerst_keepsQueue (s : State) : KeepsQueue s (execPerst s) := by simp [execPerst]
@[simp] theorem execPcieLinkUp_keepsQueue (o : PcieObs) (s : State) : KeepsQueue s (execPcieLinkUp o s) := ⟨_, rfl, rfl⟩
@[simp] theorem State.cfgWrite_pending (s : State) (off : Nat) (value mask : W32) : (s.cfgWrite off value mask).pending = s.pending := by
  simp only [State.cfgWrite]; split <;> simp
@[simp] theorem execConfigurationRequest_keepsQueue (s : State) (q : CfgReq) : KeepsQueue s (execConfigurationRequest s q) :=
  ⟨_, rfl, by
    split
    · simp
    · split <;> simp⟩
@[simp] theorem State.doorbell_pending (s : State) (r : Nat) (o : DoorbellObs) : (s.doorbell r o).pending = s.pending := by
  simp [State.doorbell]
@[simp] theorem State.unknownEntry_pending (s : State) (r : Nat) (e : Words) : (s.unknownEntry r e).pending = s.pending := by
  simp [State.unknownEntry]
@[simp] theorem execDoorbellPoll_keepsQueue (r : Fin 17) (o : DoorbellObs) (s : State) : KeepsQueue s (execDoorbellPoll r o s) := by
  simp [execDoorbellPoll]
@[simp] theorem execDoorbellLineLost_keepsQueue (r : Fin 17) (o : DoorbellObs) (s : State) : KeepsQueue s (execDoorbellLineLost r o s) := by
  simp [execDoorbellLineLost]
@[simp] theorem execStaleReread_keepsQueue (r : Fin 17) (e : Words) (s : State) : KeepsQueue s (execStaleReread r e s) := by
  simp [execStaleReread]
@[simp] theorem execDescStale_keepsQueue (r : Fin 17) (e : Words) (s : State) : KeepsQueue s (execDescStale r e s) := by
  simp [execDescStale]
@[simp] theorem execNop_keepsQueue (r : Fin 17) (e : Words) (s : State) : KeepsQueue s (execNop r e s) := by simp [execNop]
@[simp] theorem execArm_keepsQueue (r : Fin 17) (e : Words) (s : State) : KeepsQueue s (execArm r e s) := by simp [execArm]
@[simp] theorem execStart_keepsQueue (r : Fin 17) (e : Words) (s : State) : KeepsQueue s (execStart r e s) := by
  simp only [execStart, State.ring, keepsQueue_next]
  repeat' split
  all_goals simp
@[simp] theorem execPause_keepsQueue (r : Fin 17) (e : Words) (s : State) : KeepsQueue s (execPause r e s) := by
  simp only [execPause, State.ring, keepsQueue_next]
  repeat' split
  all_goals simp
@[simp] theorem execDisarm_keepsQueue (r : Fin 17) (e : Words) (s : State) : KeepsQueue s (execDisarm r e s) := by simp [execDisarm]
@[simp] theorem execSyncAdd_keepsQueue (r : Fin 17) (e : Words) (s : State) : KeepsQueue s (execSyncAdd r e s) := by
  simp only [execSyncAdd, State.ring, keepsQueue_next]
  repeat' split
  all_goals simp
@[simp] theorem State.addSig_pending (s : State) (e : Words) : (s.addSig e).pending = s.pending := by simp [State.addSig]
@[simp] theorem execCopy_keepsQueue (r : Fin 17) (e : Words) (s : State) : KeepsQueue s (execCopy r e s) := by
  refine ⟨_, rfl, State.ring_pending _ _ _ _ _ _ _ _ (.of_eq fun t u h => ?_)⟩
  repeat' split at h
  all_goals subst h; simp
@[simp] theorem State.copyOut_pending (s : State) (host dev : Nat) (x : Nat) : (s.copyOut host dev x).pending = s.pending := by
  induction x with
  | zero => rfl
  | succ n ih => simp [State.copyOut, ih]
@[simp] theorem State.copyData_snd_pending (s : State) (r : Nat) (e : Words) (o : CopyObs) : (s.copyData r e o).2.pending = s.pending := by
  simp only [State.copyData]
  split
  · simp
  · split <;> simp
@[simp] theorem State.copyEnd_pending (s : State) (r : Nat) (e : Words) (st : Nat) : (s.copyEnd r e st).pending = s.pending := by
  simp [State.copyEnd]
@[simp] theorem execCopyComplete_keepsQueue (r : Fin 17) (o : CopyObs) (s : State) : KeepsQueue s (execCopyComplete r o s) := by
  refine ⟨_, rfl, ?_⟩
  have data := fun e => State.copyData_snd_pending s r e o
  obtain ⟨copyData, h⟩ := exists_eq (a' := State.copyData)
  rw [← h] at data ⊢
  dsimp only
  split
  · rfl
  · split
    · rfl
    · split
      · simp
      · simp [data]
@[simp] theorem execNetXfer_keepsQueue (r : Fin 17) (e : Words) (s : State) : KeepsQueue s (execNetXfer r e s) := by
  refine ⟨_, rfl, State.ring_pending _ _ _ _ _ _ _ _ (.of_eq fun t u h => ?_)⟩
  repeat' split at h
  all_goals subst h; simp
@[simp] theorem execNetXferComplete_keepsQueue (r : Fin 17) (s : State) : KeepsQueue s (execNetXferComplete r s) := by
  simp only [execNetXferComplete, keepsQueue_next]
  repeat' split
  all_goals simp
@[simp] theorem State.flushPair_pending (s : State) (r : Nat) (x : List Words) : (s.flushPair r x).pending = s.pending := by
  induction x generalizing s with
  | nil => simp [State.flushPair]
  | cons w rest ih => simp [State.flushPair, ih]
@[simp] theorem execOverflowQueuePost_keepsQueue (r : Fin 17) (s : State) : KeepsQueue s (execOverflowQueuePost r s) := by
  simp [execOverflowQueuePost]
@[simp] theorem execIrqCoalesce_keepsQueue (r : Fin 17) (s : State) : KeepsQueue s (execIrqCoalesce r s) := by simp [execIrqCoalesce]

/-! ### Clocks and temperatures (Age) -/

@[simp] theorem State.setClock_pending (s : State) (p mhz : Nat) : (s.setClock p mhz).pending = s.pending := by simp [State.setClock]
@[simp] theorem State.relimit_pending (s : State) : s.relimit.pending = s.pending := by simp [State.relimit]
@[simp] theorem State.keepPlan_pending (s : State) (p : Nat) : (s.keepPlan p).pending = s.pending := by simp [State.keepPlan]
@[simp] theorem State.floorPlain_pending (s : State) (p : Nat) : (s.floorPlain p).pending = s.pending := by simp [State.floorPlain]
@[simp] theorem execAgeMeasure_keepsQueue (p : Fin 16) (slackPs roCount : BitVec 16) (s : State) :
    KeepsQueue s (execAgeMeasure p slackPs roCount s) := by
  simp [execAgeMeasure]
@[simp] theorem execPwrMeasure_keepsQueue (watts : BitVec 16) (s : State) : KeepsQueue s (execPwrMeasure watts s) := ⟨_, rfl, rfl⟩
@[simp] theorem State.lowerClocks_pending (s : State) : s.lowerClocks.pending = s.pending := by simp [State.lowerClocks]
@[simp] theorem execPwrClockLower_keepsQueue (s : State) : KeepsQueue s (execPwrClockLower s) := by
  simp -implicitDefEqProofs [execPwrClockLower]
@[simp] theorem execPwrClockRaise_keepsQueue (s : State) : KeepsQueue s (execPwrClockRaise s) := by simp [execPwrClockRaise]
@[simp] theorem execPwrFloor_keepsQueue (s : State) : KeepsQueue s (execPwrFloor s) := by simp [execPwrFloor]
@[simp] theorem State.setTj_pending (s : State) (t : BitVec 8) : (s.setTj t).pending = s.pending := by simp [State.setTj]
@[simp] theorem execThermalThrottle_keepsQueue (tempC : BitVec 8) (s : State) : KeepsQueue s (execThermalThrottle tempC s) := by
  simp only [execThermalThrottle, keepsQueue_next]
  split <;> simp -implicitDefEqProofs
@[simp] theorem execThermalRecover_keepsQueue (tempC : BitVec 8) (s : State) : KeepsQueue s (execThermalRecover tempC s) := by
  simp [execThermalRecover]

/-! ### The boundary (Boundary) -/

@[simp] theorem State.copyP_pending (s : State) (m p : Nat) : (s.copyP m p).pending = s.pending := by simp [State.copyP]
@[simp] theorem State.switchPlain_pending (s : State) (m : Nat) : (s.switchPlain m).pending = s.pending := by
  simp only [State.switchPlain]; split <;> simp
@[simp] theorem State.switchEpoch_pending (s : State) (m : Nat) : (s.switchEpoch m).pending = s.pending := by
  simp only [State.switchEpoch]; split <;> simp
@[simp] theorem State.nextStep_pending (s : State) (m : Nat) : (s.nextStep m).pending = s.pending := by simp [State.nextStep]
@[simp] theorem State.boundaryRest_pending (s : State) (m : Nat) : (s.boundaryRest m).pending = s.pending := by simp [State.boundaryRest]
@[simp] theorem State.boundary_pending (s : State) (m : Nat) : (s.boundary m).pending = s.pending := by simp [State.boundary]
@[simp] theorem execCkpDrainRead_keepsQueue (s : State) : KeepsQueue s (execCkpDrainRead s) := by simp [execCkpDrainRead]
@[simp] theorem execStepEnd_keepsQueue (p : Fin 16) (s : State) : KeepsQueue s (execStepEnd p s) :=
  ⟨_, rfl, State.reach_pending _ _ _ _ fun m ws t => by
    dsimp only
    split <;> simp⟩

/-! ### Collectives (Coll) -/

@[simp] theorem execColl_keepsQueue (p : Fin 16) (s : State) : KeepsQueue s (execColl p s) :=
  ⟨_, rfl, State.reach_pending _ _ _ _ fun m ws t => by
    dsimp only
    split <;> simp⟩
@[simp] theorem State.collWait_pending (s : State) (p : Nat) (j : Job) : (s.collWait p j).pending = s.pending := by
  simp only [State.collWait]; split <;> simp
@[simp] theorem execCollRankTableRead_keepsQueue (p : Fin 16) (id : Nat) (s : State) : KeepsQueue s (execCollRankTableRead p id s) := by
  refine ⟨_, rfl, ?_⟩
  obtain ⟨readFault, h⟩ := exists_eq (a' := State.readFault)
  rw [← h]
  split
  · split
    · rfl
    · dsimp only
      split <;> simp
  · rfl
@[simp] theorem State.collWrite_pending (s : State) (p m : Nat) (j : Job) (dev a : Nat) (data : Bytes) (bad : List Nat) :
    (s.collWrite p m j dev a data bad).pending = s.pending := by
  simp [State.collWrite]
@[simp] theorem State.collSignal_pending (s : State) (p m : Nat) (j : Job) (dev o : Nat) :
    (s.collSignal p m j dev o).pending = s.pending := by
  simp [State.collSignal]
@[simp] theorem State.collSend_pending (s : State) (p m : Nat) (j : Job) (src : Nat → Nat) (dst n : Nat) :
    (s.collSend p m j src dst n).pending = s.pending := by
  simp [State.collSend]
@[simp] theorem State.collStep_pending (s : State) (p : Nat) (id : Nat) : (s.collStep p id).pending = s.pending := by
  simp only [State.collStep]
  split
  · split
    · rfl
    · simp only [State.ite_pending, State.collWait_pending, State.setJob_pending, ite_self]
      refine foldl_fst_pending _ (fun x r => ?_) _ _
      repeat' split
      all_goals simp
  · rfl
@[simp] theorem State.collSteps_pending (s : State) : s.collSteps.pending = s.pending := by
  simp only [State.collSteps]
  exact State.foldl_pending _ (fun p t => State.foldl_pending _ (fun j t => by simp) _ _) _ _
@[simp] theorem execCollFreeMet_keepsQueue (p : Fin 16) (id : Nat) (s : State) : KeepsQueue s (execCollFreeMet p id s) := by
  simp only [execCollFreeMet, keepsQueue_next]
  repeat' split
  all_goals simp
@[simp] theorem State.readTags_pending (s : State) (p : Nat) (j : Job) (phase : Nat) : (s.readTags p j phase).pending = s.pending := by
  simp [State.readTags]
@[simp] theorem State.tagFault_pending (s : State) (p m : Nat) (j : Job) (x : Nat × Option Nat) :
    (s.tagFault p m j x).pending = s.pending := by
  simp only [State.tagFault]; split <;> simp
@[simp] theorem State.collRelease_pending (s : State) (p m : Nat) (j : Job) : (s.collRelease p m j).pending = s.pending := by
  simp [State.collRelease]
@[simp] theorem execCollArriveMet_keepsQueue (p : Fin 16) (id : Nat) (s : State) : KeepsQueue s (execCollArriveMet p id s) := by
  simp only [execCollArriveMet, keepsQueue_next]
  repeat' split
  all_goals simp
@[simp] theorem execCollPhase1Met_keepsQueue (p : Fin 16) (id : Nat) (s : State) : KeepsQueue s (execCollPhase1Met p id s) := by
  simp only [execCollPhase1Met, keepsQueue_next]
  repeat' split
  all_goals simp
@[simp] theorem execCollEnd_keepsQueue (p : Fin 16) (id : Nat) (s : State) : KeepsQueue s (execCollEnd p id s) :=
  ⟨_, rfl, by split <;> simp⟩
@[simp] theorem State.timeoutFault_pending (s : State) (p m : Nat) (tag next : W32) (o : Nat) :
    (s.timeoutFault p m tag next o).pending = s.pending := by
  simp [State.timeoutFault]
@[simp] theorem execSyncTimeout_keepsQueue (w : WaitObs) (s : State) : KeepsQueue s (execSyncTimeout w s) := by
  simp only [execSyncTimeout, keepsQueue_next]
  repeat' split
  all_goals simp
@[simp] theorem State.resumeColls_pending (s : State) (p : Nat) : (s.resumeColls p).pending = s.pending := by simp [State.resumeColls]
@[simp] theorem State.restartPlain_pending (s : State) (p m : Nat) : (s.restartPlain p m).pending = s.pending := by
  simp [State.restartPlain]
@[simp] theorem State.resumePlain_pending (s : State) (p : Nat) : (s.resumePlain p).pending = s.pending := by
  simp only [State.resumePlain]; split <;> simp
@[simp] theorem execPlnCtrlResume_keepsQueue (v : Nat) (p : Fin 16) (s : State) : KeepsQueue s (execPlnCtrlResume v p s) := by
  simp [execPlnCtrlResume]

/-! ### The window (Win) -/

@[simp] theorem State.setBias_pending (s : State) (k : Nat) (d : Bool) : (s.setBias k d).pending = s.pending := by simp [State.setBias]
@[simp] theorem State.flipBias_pending (s : State) (off len : Nat) : (s.flipBias off len).pending = s.pending := by simp [State.flipBias]
@[simp] theorem State.winDiscard_pending (s : State) (off value : Nat) : (s.winDiscard off value).pending = s.pending := by
  simp [State.winDiscard]
@[simp] theorem State.serveWin_pending (s : State) (x : WinAcc) : (s.serveWin x).pending = s.pending := by
  simp only [State.serveWin]
  split
  · split <;> simp
  · simp
@[simp] theorem State.winAccess_pending (s : State) (path : WinPath) (off len : Nat) (x : WinAcc) :
    (s.winAccess path off len x).pending = s.pending := by
  simp [State.winAccess]
@[simp] theorem execWinRead_keepsQueue (w : WinAddr) (len : Nat) (s : State) : KeepsQueue s (execWinRead w len s) := by simp [execWinRead]
@[simp] theorem execWinWrite_keepsQueue (w : WinAddr) (data : Bytes) (s : State) : KeepsQueue s (execWinWrite w data s) := by
  simp [execWinWrite]
@[simp] theorem State.winSwitch_pending (s : State) (base : Nat) : (s.winSwitch base).pending = s.pending := by simp [State.winSwitch]
@[simp] theorem State.winMove_pending (s : State) (v : Nat) (hi : W32) : (s.winMove v hi).pending = s.pending := by simp [State.winMove]
@[simp] theorem execWinMove_keepsQueue (hi : W32) (s : State) : KeepsQueue s (execWinMove hi s) := by
  refine ⟨_, rfl, State.regGate_pending _ _ _ _ _ _ (.of_eq fun t u h => ?_)⟩
  rw [← h, State.winMove_pending]
@[simp] theorem State.winBias_pending (s : State) (w : Nat) (value : W32) : (s.winBias w value).pending = s.pending := by
  simp [State.winBias]
@[simp] theorem execWinBiasSet_keepsQueue (w : Fin 8) (value : W32) (s : State) : KeepsQueue s (execWinBiasSet w value s) := by
  simp [execWinBiasSet]
@[simp] theorem State.writeDirty_pending (s : State) (lo hi : Nat) (dirty : List (Nat × Bytes)) :
    (s.writeDirty lo hi dirty).pending = s.pending := by
  simp [State.writeDirty]
@[simp] theorem execBackInvalidationDone_keepsQueue (b : BackInv) (s : State) : KeepsQueue s (execBackInvalidationDone b s) := by
  simp only [execBackInvalidationDone, keepsQueue_next]
  repeat' split
  all_goals simp

/-! ### Register reads (Read) -/

@[simp] theorem State.glbClear_pending (s : State) : s.glbClear.pending = s.pending := by simp [State.glbClear]
@[simp] theorem State.readReg_snd_pending (s : State) (v off : Nat) : (s.readReg v off).2.pending = s.pending := by
  fun_cases State.readReg <;> simp +zetaDelta
@[simp] theorem execPairLoRead_keepsQueue (v off : Nat) (s : State) : KeepsQueue s (execPairLoRead v off s) := by simp [execPairLoRead]
@[simp] theorem execRegMisaligned_keepsQueue (v off size : Nat) (write : Bool) (s : State) :
    KeepsQueue s (execRegMisaligned v off size write s) := by
  simp [execRegMisaligned]
@[simp] theorem State.liveRecord_snd_pending (s : State) (unit path : Nat) : (s.liveRecord unit path).2.pending = s.pending := by
  fun_cases State.liveRecord <;> simp
@[simp] theorem State.captureCnt_pending (s : State) (v : Nat) (value : W32) : (s.captureCnt v value).pending = s.pending := by
  simp only [State.captureCnt]
  repeat' split
  all_goals simp
@[simp] theorem execCntSelCapture_keepsQueue (v : Nat) (value : W32) (s : State) : KeepsQueue s (execCntSelCapture v value s) := by
  simp [execCntSelCapture]
@[simp] theorem execCntGlbClear_keepsQueue (s : State) : KeepsQueue s (execCntGlbClear s) := by simp [execCntGlbClear]
@[simp] theorem State.captureLog_pending (s : State) (v : Nat) (seq : W32) : (s.captureLog v seq).pending = s.pending := by
  simp [State.captureLog]
@[simp] theorem execLogSelCapture_keepsQueue (v : Nat) (seq : W32) (s : State) : KeepsQueue s (execLogSelCapture v seq s) := by
  simp [execLogSelCapture]

/-! ### The watershed (Dbg) -/

@[simp] theorem execDbgCtrlStop_keepsQueue (s : State) : KeepsQueue s (execDbgCtrlStop s) := by simp [execDbgCtrlStop]
@[simp] theorem State.resumePlains_pending (s : State) : s.resumePlains.pending = s.pending := by
  simp only [State.resumePlains]
  exact State.foldl_pending _ (fun p t => by dsimp only; split <;> simp) _ _
@[simp] theorem State.resume_pending (s : State) (v : Nat) (value : W32) : (s.resume v value).pending = s.pending := by simp [State.resume]
@[simp] theorem execDbgCtrlResume_keepsQueue (s : State) : KeepsQueue s (execDbgCtrlResume s) := by simp [execDbgCtrlResume]
@[simp] theorem State.scanPlain_snd_pending (s : State) (p : Nat) : (s.scanPlain p).2.pending = s.pending := by simp [State.scanPlain]
@[simp] theorem State.scanCore_snd_pending (s : State) (c : Nat) : (s.scanCore c).2.pending = s.pending := by
  simp only [State.scanCore]; split <;> simp
@[simp] theorem State.writeRuns_pending (s : State) (f : State → Nat → Bytes × State) (hf : ∀ t i, (f t i).2.pending = t.pending) (a : Nat) (x : List Nat) :
    (s.writeRuns f a x).pending = s.pending := by
  induction x generalizing s a with
  | nil => rfl
  | cons i r ih => simp [State.writeRuns, ih, hf]
@[simp] theorem State.scanOut_pending (s : State) : s.scanOut.pending = s.pending := by simp [State.scanOut]
@[simp] theorem execScanOutDone_keepsQueue (s : State) : KeepsQueue s (execScanOutDone s) := by simp [execScanOutDone]

/-! ### The Ethernet ports (Eth) -/

@[simp] theorem State.dropXfers_pending (s : State) (q : Nat) : (s.dropXfers q).pending = s.pending := by simp [State.dropXfers]
@[simp] theorem State.qpError_pending (s : State) (q : Nat) : (s.qpError q).pending = s.pending := by simp [State.qpError]
@[simp] theorem State.retryQp_pending (s : State) (q : Nat) : (s.retryQp q).pending = s.pending := by
  simp only [State.retryQp]; split <;> simp
@[simp] theorem execQpAckTimeout_keepsQueue (q : Fin 512) (s : State) : KeepsQueue s (execQpAckTimeout q s) := by simp [execQpAckTimeout]
@[simp] theorem State.xferAnswer_pending (s : State) (q : Nat) (t : Xfer) (r : List Xfer) (x : Qp) (data : Bytes) (ack : Bool) :
    (s.xferAnswer q t r x data ack).pending = s.pending := by
  simp only [State.xferAnswer]
  split
  · simp
  · split
    · simp
    · split <;> simp
@[simp] theorem State.sendCnp_pending (s : State) (q : Nat) (ce : Bool) : (s.sendCnp q ce).pending = s.pending := by simp [State.sendCnp]
@[simp] theorem State.response_pending (s : State) (q : Nat) (a : RdmaAnswer) : (s.response q a).pending = s.pending := by
  simp only [State.response]; split <;> simp
@[simp] theorem execRdmaResponse_keepsQueue (q : Fin 512) (a : RdmaRsp) (s : State) : KeepsQueue s (execRdmaResponse q a s) := by
  simp only [execRdmaResponse, keepsQueue_next]
  repeat' split
  all_goals simp
@[simp] theorem State.answerNak_pending (s : State) (q : Nat) (o : EthOut) : (s.answerNak q o).pending = s.pending := by
  simp [State.answerNak]
@[simp] theorem State.arrive_pending (s : State) (q n k : Nat) (psn : BitVec 24) (ce : Bool) (again f : State → State) (hagain : KeepsPending again) (hf : KeepsPending f) :
    (s.arrive q n k psn ce again f).pending = s.pending := by
  simp [State.arrive, hagain.eq, hf.eq]
@[simp] theorem execRdmaWriteRequest_keepsQueue (q : Fin 512) (rkey : W32) (va : W64) (data : Bytes) (k : ReqMark) (s : State) :
    KeepsQueue s (execRdmaWriteRequest q rkey va data k s) := by
  simp [execRdmaWriteRequest]
@[simp] theorem State.rdmaRead_pending (s : State) (q : Nat) (rkey : W32) (va len : Nat) :
    (s.rdmaRead q rkey va len).pending = s.pending := by
  simp [State.rdmaRead]
@[simp] theorem execRdmaReadRequest_keepsQueue (q : Fin 512) (rkey : W32) (va : W64) (len : Nat) (k : ReqMark) (s : State) :
    KeepsQueue s (execRdmaReadRequest q rkey va len k s) := by
  simp [execRdmaReadRequest]
@[simp] theorem execCnpReceive_keepsQueue (q : Fin 512) (s : State) : KeepsQueue s (execCnpReceive q s) := by simp [execCnpReceive]
@[simp] theorem execCnpRateRaise_keepsQueue (q : Fin 512) (s : State) : KeepsQueue s (execCnpRateRaise q s) := ⟨_, rfl, rfl⟩
@[simp] theorem execPfcFrame_keepsQueue (port : Fin 2) (prio : BitVec 8) (pause : BitVec 8) (s : State) :
    KeepsQueue s (execPfcFrame port prio pause s) := by
  simp [execPfcFrame]
@[simp] theorem State.otherFrame_pending (s : State) (port : Nat) (answer : Option EthOut) :
    (s.otherFrame port answer).pending = s.pending := by
  simp only [State.otherFrame]
  split
  · simp
  · split <;> simp
@[simp] theorem execArpRequest_keepsQueue (port : Fin 2) (ip : BitVec 32) (s : State) : KeepsQueue s (execArpRequest port ip s) := by
  simp [execArpRequest]
@[simp] theorem execNeighbourSolicitation_keepsQueue (port : Fin 2) (gid : BitVec 128) (s : State) :
    KeepsQueue s (execNeighbourSolicitation port gid s) := by
  simp [execNeighbourSolicitation]
@[simp] theorem execEthFrameDrop_keepsQueue (f : FrameObs) (s : State) : KeepsQueue s (execEthFrameDrop f s) := by simp [execEthFrameDrop]
@[simp] theorem State.setEthEntry_pending (s : State) (t : EthTable) (i : Nat) (e : Words) : (s.setEthEntry t i e).pending = s.pending := by
  simp only [State.setEthEntry]; split <;> simp
@[simp] theorem State.setSel_pending (s : State) (t : EthTable) (index : Nat) (refused : Bool) :
    (s.setSel t index refused).pending = s.pending := by
  simp [State.setSel]
@[simp] theorem State.ethLoad_pending (s : State) (t : EthTable) (index : Nat) : (s.ethLoad t index).pending = s.pending := by
  simp [State.ethLoad]
@[simp] theorem State.ethCommit_pending (s : State) (t : EthTable) (index : Nat) : (s.ethCommit t index).pending = s.pending := by
  simp only [State.ethCommit]
  split
  · simp
  · split <;> simp
@[simp] theorem execEthSelLoad_keepsQueue (t : EthTable) (index : BitVec 12) (s : State) : KeepsQueue s (execEthSelLoad t index s) := by
  simp [execEthSelLoad]
@[simp] theorem execEthSelCommit_keepsQueue (t : EthTable) (index : BitVec 12) (s : State) : KeepsQueue s (execEthSelCommit t index s) := by
  simp [execEthSelCommit]

/-! ### Links (Links) -/

@[simp] theorem State.pumpHeld_pending (s : State) (x : List Outst) (y : List Outst) : (s.pumpHeld x y).pending = s.pending := by
  induction y generalizing s x with
  | nil => rfl
  | cons o r ih =>
    simp only [State.pumpHeld]
    split <;> simp [ih]
@[simp] theorem State.pump_pending (s : State) : s.pump.pending = s.pending := by simp [State.pump]
@[simp] theorem State.protoDrop_pending (s : State) (n : Nat) : (s.protoDrop n).pending = s.pending := by simp [State.protoDrop]
@[simp] theorem State.freeUnits_pending (s : State) (n : Nat) (k : Packet) : (s.freeUnits n k).pending = s.pending := by
  simp [State.freeUnits]
@[simp] theorem State.refuse_pending (s : State) (k : Packet) (ptype reason : Nat) : (s.refuse k ptype reason).pending = s.pending := by
  simp [State.refuse]
@[simp] theorem State.rx_pending (s : State) (n : Nat) (k : Packet) (type : Nat) (f : State → State) (hf : KeepsPending f) :
    (s.rx n k type f).pending = s.pending := by
  simp [State.rx, hf.eq]
@[simp] theorem State.remoteDrop_pending (s : State) (n : Nat) (k : Packet) (m : Option Nat) (code what : Nat) :
    (s.remoteDrop n k m code what).pending = s.pending := by
  simp [State.remoteDrop]
@[simp] theorem State.refuseWrite_pending (s : State) (n : Nat) (k : Packet) (m : Option Nat) :
    (s.refuseWrite n k m).pending = s.pending := by
  simp [State.refuseWrite]
@[simp] theorem State.applyRemote_pending (s : State) (k : Packet) (m : Option Nat) : (s.applyRemote k m).pending = s.pending := by
  simp [State.applyRemote]
@[simp] theorem execRxWrite_keepsQueue (n : Fin 64) (pk : Packet) (s : State) : KeepsQueue s (execRxWrite n pk s) :=
  ⟨_, rfl, State.rx_pending _ _ _ _ _ fun t => by split <;> simp⟩
@[simp] theorem State.refuseEpoch_pending (s : State) (n : Nat) (k : Packet) (m ptype what : Nat) :
    (s.refuseEpoch n k m ptype what).pending = s.pending := by
  simp [State.refuseEpoch]
@[simp] theorem execRxCollWrite_keepsQueue (n : Fin 64) (pk : Packet) (s : State) : KeepsQueue s (execRxCollWrite n pk s) :=
  ⟨_, rfl, State.rx_pending _ _ _ _ _ fun t => by split <;> simp⟩
@[simp] theorem State.remoteSignal_pending (s : State) (n : Nat) (k : Packet) : (s.remoteSignal n k).pending = s.pending := by
  simp only [State.remoteSignal]; split <;> simp
@[simp] theorem execRxSignal_keepsQueue (n : Fin 64) (pk : Packet) (s : State) : KeepsQueue s (execRxSignal n pk s) := by
  simp [execRxSignal]
@[simp] theorem execRxCollSignal_keepsQueue (n : Fin 64) (pk : Packet) (s : State) : KeepsQueue s (execRxCollSignal n pk s) :=
  ⟨_, rfl, State.rx_pending _ _ _ _ _ fun t => by split <;> simp⟩
@[simp] theorem execRxStop_keepsQueue (n : Fin 64) (pk : Packet) (s : State) : KeepsQueue s (execRxStop n pk s) := by simp [execRxStop]
@[simp] theorem State.release_pending (s : State) (o : Outst) : (s.release o).pending = s.pending := by simp [State.release]
@[simp] theorem State.settle_pending (s : State) (type src req : Nat) : (s.settle type src req).pending = s.pending := by
  simp only [State.settle]
  split
  · simp
  · split <;> simp
@[simp] theorem execRxWriteAck_keepsQueue (n : Fin 64) (pk : Packet) (s : State) : KeepsQueue s (execRxWriteAck n pk s) := by
  simp [execRxWriteAck]
@[simp] theorem execRxSignalAck_keepsQueue (n : Fin 64) (pk : Packet) (s : State) : KeepsQueue s (execRxSignalAck n pk s) := by
  simp [execRxSignalAck]
@[simp] theorem State.stopOwner_pending (s : State) (o : Outst) (code : Nat) : (s.stopOwner o code).pending = s.pending := by
  fun_cases State.stopOwner <;> simp
@[simp] theorem execRxWriteNak_keepsQueue (n : Fin 64) (pk : Packet) (s : State) : KeepsQueue s (execRxWriteNak n pk s) :=
  ⟨_, rfl, State.rx_pending _ _ _ _ _ fun t => by dsimp only; split <;> simp⟩
@[simp] theorem execRxSignalNak_keepsQueue (n : Fin 64) (pk : Packet) (s : State) : KeepsQueue s (execRxSignalNak n pk s) :=
  ⟨_, rfl, State.rx_pending _ _ _ _ _ fun t => by split <;> simp⟩
@[simp] theorem execPacketSettleTimeout_keepsQueue (reqId : BitVec 16) (s : State) : KeepsQueue s (execPacketSettleTimeout reqId s) :=
  ⟨_, rfl, by split <;> simp⟩
@[simp] theorem execRxCkpt_keepsQueue (n : Fin 64) (pk : Packet) (s : State) : KeepsQueue s (execRxCkpt n pk s) :=
  ⟨_, rfl, State.rx_pending _ _ _ _ _ fun t => by
    dsimp only
    split
    · simp
    · simp
    · split <;> simp
    · simp⟩
@[simp] theorem State.replay_pending (s : State) (n : Nat) : (s.replay n).pending = s.pending := by simp [State.replay]
@[simp] theorem State.linkAcked_pending (s : State) (n : Nat) (a : BitVec 12) : (s.linkAcked n a).pending = s.pending := by
  simp [State.linkAcked]
@[simp] theorem State.sendFlit_pending (s : State) (n : Nat) : (s.sendFlit n).pending = s.pending := by simp [State.sendFlit]
@[simp] theorem State.takeFlit_pending (s : State) (n : Nat) (f : FlitObs) : (s.takeFlit n f).pending = s.pending := by
  simp [State.takeFlit]
@[simp] theorem execFlitReceive_keepsQueue (n : Fin 64) (f : FlitObs) (s : State) : KeepsQueue s (execFlitReceive n f s) := by
  simp [execFlitReceive]
@[simp] theorem execReplayTimeout_keepsQueue (n : Fin 64) (s : State) : KeepsQueue s (execReplayTimeout n s) := by simp [execReplayTimeout]
@[simp] theorem State.linkFail_pending (s : State) (n : Nat) : (s.linkFail n).pending = s.pending := by
  simp only [State.linkFail]
  rw [State.foldl_pending _ (fun w t => by dsimp only; split <;> simp)]
  simp
@[simp] theorem execLinkReplayLimit_keepsQueue (n : Fin 64) (s : State) : KeepsQueue s (execLinkReplayLimit n s) := by
  simp [execLinkReplayLimit]
@[simp] theorem execLinkRxLoss_keepsQueue (n : Fin 64) (s : State) : KeepsQueue s (execLinkRxLoss n s) := by simp [execLinkRxLoss]
@[simp] theorem State.linkDown_pending (s : State) (n : Nat) : (s.linkDown n).pending = s.pending := by simp [State.linkDown]
@[simp] theorem State.linkEn_pending (s : State) (n : Nat) (en : Bool) : (s.linkEn n en).pending = s.pending := by simp [State.linkEn]
@[simp] theorem execLnkCtrlEn_keepsQueue (n : Fin 64) (en : Bool) (s : State) : KeepsQueue s (execLnkCtrlEn n en s) := by
  simp [execLnkCtrlEn]
@[simp] theorem execLinkTrained_keepsQueue (n : Fin 64) (t : TrainObs) (s : State) : KeepsQueue s (execLinkTrained n t s) :=
  ⟨_, rfl, by
    split
    · simp
    · split <;> simp⟩
@[simp] theorem State.colDown_pending (s : State) (k : Nat) : (s.colDown k).pending = s.pending := by simp [State.colDown]
@[simp] theorem State.setCage_pending (s : State) (k : Nat) (c : CageObs) : (s.setCage k c).pending = s.pending := by simp [State.setCage]
@[simp] theorem execColModReset_keepsQueue (k : Fin 16) (ended : Option CageObs) (s : State) : KeepsQueue s (execColModReset k ended s) :=
  ⟨_, rfl, by split <;> simp⟩
@[simp] theorem State.colPower_pending (s : State) (k : Nat) (on : Bool) : (s.colPower k on).pending = s.pending := by simp [State.colPower]
@[simp] theorem execColModPwr_keepsQueue (k : Fin 16) (on : Bool) (s : State) : KeepsQueue s (execColModPwr k on s) := by
  simp [execColModPwr]
@[simp] theorem State.reshard_pending (s : State) (m : Nat) (e : BitVec 16) : (s.reshard m e).pending = s.pending := by simp [State.reshard]
@[simp] theorem execLnkCtxReshard_keepsQueue (v : Nat) (m : Fin 16) (epoch : BitVec 16) (s : State) :
    KeepsQueue s (execLnkCtxReshard v m epoch s) := by
  simp [execLnkCtxReshard]

/-! ### Security (Sec) -/

@[simp] theorem State.eraseKeys_pending (s : State) (all : Bool) : (s.eraseKeys all).pending = s.pending := by simp [State.eraseKeys]
@[simp] theorem State.logSec_pending (s : State) (sources action : Nat) : (s.logSec sources action).pending = s.pending := by
  simp [State.logSec]
@[simp] theorem State.haltAll_pending (s : State) (code : Nat) (ok : CtxState → Bool) : (s.haltAll code ok).pending = s.pending := by
  simp [State.haltAll]
@[simp] theorem State.alarm_pending (s : State) (i : Nat) : (s.alarm i).pending = s.pending := by simp [State.alarm]
@[simp] theorem execSecAlarm_keepsQueue (a : AlarmSrc) (s : State) : KeepsQueue s (execSecAlarm a s) := by simp [execSecAlarm]
@[simp] theorem State.switchContexts_pending (s : State) (ver : BitVec 16) : (s.switchContexts ver).pending = s.pending := by
  simp [State.switchContexts]
@[simp] theorem State.activate_snd_pending (s : State) : s.activate.2.pending = s.pending := by
  simp only [State.activate]
  split
  · split <;> simp
  · simp
@[simp] theorem execFwActivate_keepsQueue (r : Fin 17) (e : Words) (s : State) : KeepsQueue s (execFwActivate r e s) := by
  simp [execFwActivate]

/-! ### Management (Mgmt) -/

@[simp] theorem State.putData_pending (s : State) (ws : Words) : (s.putData ws).pending = s.pending := by simp [State.putData]
@[simp] theorem State.vendorAnswer_pending (s : State) (i : MgtIface) (token : BitVec 8) (started : Bool) (result : Nat) (data : Words) :
    (s.vendorAnswer i token started result data).pending = s.pending := by
  simp [State.vendorAnswer]
@[simp] theorem State.vendor_pending (s : State) (i : MgtIface) (token : BitVec 8) (opcode : Nat) (request : Words) (f : State → State) (hf : KeepsPending f) :
    (s.vendor i token opcode request f).pending = s.pending := by
  simp [State.vendor, hf.eq]
@[simp] theorem State.drawWords_snd_pending (s : State) (n : Nat) : (s.drawWords n).2.pending = s.pending := by simp [State.drawWords]
@[simp] theorem execGetStatus_keepsQueue (i : MgtIface) (token : BitVec 8) (s : State) : KeepsQueue s (execGetStatus i token s) := by
  simp [execGetStatus]
@[simp] theorem execGetIdentity_keepsQueue (i : MgtIface) (token : BitVec 8) (s : State) : KeepsQueue s (execGetIdentity i token s) := by
  simp [execGetIdentity]
@[simp] theorem execGetSensor_keepsQueue (i : MgtIface) (token : BitVec 8) (sensor : W32) (s : State) :
    KeepsQueue s (execGetSensor i token sensor s) := by
  simp [execGetSensor]
@[simp] theorem execHeartbeat_keepsQueue (i : MgtIface) (token : BitVec 8) (word : W32) (s : State) :
    KeepsQueue s (execHeartbeat i token word s) := by
  simp [execHeartbeat]
@[simp] theorem State.startLong_pending (s : State) (op : LongOp) (i : MgtIface) (token : BitVec 8) (ans : Bool) :
    (s.startLong op i token ans).pending = s.pending := by
  simp [State.startLong]
@[simp] theorem State.endLong_pending (s : State) (result : Nat) (data : Words) : (s.endLong result data).pending = s.pending := by
  simp only [State.endLong]; split <;> simp
@[simp] theorem execKeyErase_keepsQueue (i : MgtIface) (token : BitVec 8) (word : W32) (s : State) :
    KeepsQueue s (execKeyErase i token word s) := by
  simp [execKeyErase]
theorem State.startCommit_pending (s : State) (plain : Bool) (i : MgtIface) (token : BitVec 8) (ans : Bool) {u : State} (h : s.startCommit plain i token ans = some u) :
    u.pending = s.pending := by
  simp only [State.startCommit, Option.map_eq_some_iff] at h
  obtain ⟨b, -, rfl⟩ := h
  simp
@[simp] theorem execFwCommit_keepsQueue (i : MgtIface) (token : BitVec 8) (word : W32) (s : State) : KeepsQueue s (execFwCommit i token word s) :=
  ⟨_, rfl, State.vendor_pending _ _ _ _ _ _ fun t => by
    split
    · next h => exact State.startCommit_pending _ _ _ _ _ h
    · simp⟩
@[simp] theorem execFullScrub_keepsQueue (i : MgtIface) (token : BitVec 8) (s : State) : KeepsQueue s (execFullScrub i token s) := by
  simp [execFullScrub]
@[simp] theorem State.runJournal_pending (s : State) : s.runJournal.pending = s.pending := by simp only [State.runJournal]; split <;> simp
@[simp] theorem execLongOperationEnd_keepsQueue (s : State) : KeepsQueue s (execLongOperationEnd s) := ⟨_, rfl, by split <;> simp⟩
@[simp] theorem execDebugChallenge_keepsQueue (i : MgtIface) (token : BitVec 8) (s : State) :
    KeepsQueue s (execDebugChallenge i token s) := by
  simp [execDebugChallenge]
@[simp] theorem execDebugUnlock_keepsQueue (i : MgtIface) (token : BitVec 8) (request : Bytes) (s : State) :
    KeepsQueue s (execDebugUnlock i token request s) := by
  simp [execDebugUnlock]
@[simp] theorem State.unknownCmd_pending (s : State) (token : BitVec 8) (opcode : Nat) :
    (s.unknownCmd token opcode).pending = s.pending := by
  simp [State.unknownCmd]
@[simp] theorem execHbTimeout_keepsQueue (s : State) : KeepsQueue s (execHbTimeout s) := by simp [execHbTimeout]
@[simp] theorem State.mctpAnswer_pending (s : State) (i : MgtIface) (code : MsgCode) (data : Words) :
    (s.mctpAnswer i code data).pending = s.pending := by
  simp [State.mctpAnswer]
@[simp] theorem execMctpControl_keepsQueue (i : MgtIface) (q : MctpReq) (s : State) : KeepsQueue s (execMctpControl i q s) := by
  simp only [execMctpControl, keepsQueue_next]
  repeat' split
  all_goals simp

/-! ### MCTP and PLDM (Pldm) -/

@[simp] theorem State.pldmAnswer_pending (s : State) (i : MgtIface) (code : MsgCode) (data : Words) :
    (s.pldmAnswer i code data).pending = s.pending := by
  simp [State.pldmAnswer]
@[simp] theorem State.pldm_pending (s : State) (i : MgtIface) (w : PldmPhase) (f : State → State) (hf : KeepsPending f) :
    (s.pldm i w f).pending = s.pending := by
  simp [State.pldm, hf.eq]
@[simp] theorem execGetTid_keepsQueue (i : MgtIface) (s : State) : KeepsQueue s (execGetTid i s) := by simp [execGetTid]
@[simp] theorem execSetTid_keepsQueue (i : MgtIface) (tid : BitVec 8) (s : State) : KeepsQueue s (execSetTid i tid s) := by
  simp [execSetTid]
@[simp] theorem execGetPldmVersion_keepsQueue (i : MgtIface) (type : BitVec 8) (s : State) :
    KeepsQueue s (execGetPldmVersion i type s) := by
  simp [execGetPldmVersion]
@[simp] theorem execGetPldmTypes_keepsQueue (i : MgtIface) (s : State) : KeepsQueue s (execGetPldmTypes i s) := by simp [execGetPldmTypes]
@[simp] theorem execGetPldmCommands_keepsQueue (i : MgtIface) (type : BitVec 8) (s : State) :
    KeepsQueue s (execGetPldmCommands i type s) := by
  simp [execGetPldmCommands]
@[simp] theorem State.sensorAnswer_pending (s : State) (i : MgtIface) (sensor n : Nat) :
    (s.sensorAnswer i sensor n).pending = s.pending := by
  simp [State.sensorAnswer]
@[simp] theorem execGetPdr_keepsQueue (i : MgtIface) (sensor : Nat) (s : State) : KeepsQueue s (execGetPdr i sensor s) := by
  simp [execGetPdr]
@[simp] theorem execGetSensorReading_keepsQueue (i : MgtIface) (sensor : Nat) (s : State) :
    KeepsQueue s (execGetSensorReading i sensor s) := by
  simp [execGetSensorReading]
@[simp] theorem execQueryDeviceIdentifiers_keepsQueue (i : MgtIface) (s : State) : KeepsQueue s (execQueryDeviceIdentifiers i s) := by
  simp [execQueryDeviceIdentifiers]
@[simp] theorem execGetFirmwareParameters_keepsQueue (i : MgtIface) (s : State) : KeepsQueue s (execGetFirmwareParameters i s) := by
  simp [execGetFirmwareParameters]
@[simp] theorem State.setUpdate_pending (s : State) (u : Option Update) : (s.setUpdate u).pending = s.pending := by simp [State.setUpdate]
@[simp] theorem execRequestUpdate_keepsQueue (i : MgtIface) (s : State) : KeepsQueue s (execRequestUpdate i s) := by
  simp [execRequestUpdate]
@[simp] theorem execPassComponentTable_keepsQueue (i : MgtIface) (cs : List Component) (s : State) :
    KeepsQueue s (execPassComponentTable i cs s) :=
  ⟨_, rfl, State.pldm_pending _ _ _ _ fun t => by split <;> simp⟩
@[simp] theorem execUpdateComponent_keepsQueue (i : MgtIface) (c : Component) (s : State) : KeepsQueue s (execUpdateComponent i c s) :=
  ⟨_, rfl, State.pldm_pending _ _ _ _ fun t => by split <;> simp⟩
@[simp] theorem execRequestFirmwareData_keepsQueue (i : MgtIface) (off : Nat) (data : Bytes) (s : State) :
    KeepsQueue s (execRequestFirmwareData i off data s) :=
  ⟨_, rfl, State.pldm_pending _ _ _ _ fun t => by split <;> simp⟩
@[simp] theorem execTransferComplete_keepsQueue (i : MgtIface) (s : State) : KeepsQueue s (execTransferComplete i s) :=
  ⟨_, rfl, State.pldm_pending _ _ _ _ fun t => by split <;> simp⟩
@[simp] theorem State.recover_pending (s : State) : s.recover.pending = s.pending := by simp [State.recover]
@[simp] theorem execVerifyComplete_keepsQueue (i : MgtIface) (s : State) : KeepsQueue s (execVerifyComplete i s) :=
  ⟨_, rfl, State.pldm_pending _ _ _ _ fun t => by split <;> simp⟩
@[simp] theorem execApplyComplete_keepsQueue (i : MgtIface) (s : State) : KeepsQueue s (execApplyComplete i s) :=
  ⟨_, rfl, State.pldm_pending _ _ _ _ fun t => by split <;> simp⟩
@[simp] theorem execActivateFirmware_keepsQueue (i : MgtIface) (s : State) : KeepsQueue s (execActivateFirmware i s) :=
  ⟨_, rfl, State.pldm_pending _ _ _ _ fun t => by
    split
    · split
      · simp
      · split
        · next h => simp [State.startCommit_pending _ _ _ _ _ h]
        · simp
    · simp⟩
@[simp] theorem execPldmGetStatus_keepsQueue (i : MgtIface) (s : State) : KeepsQueue s (execPldmGetStatus i s) := by
  simp [execPldmGetStatus]
@[simp] theorem execCancelUpdate_keepsQueue (i : MgtIface) (s : State) : KeepsQueue s (execCancelUpdate i s) := by simp [execCancelUpdate]

/-! ### SPDM (Spdm) -/

@[simp] theorem State.setConn_pending (s : State) (i : MgtIface) (c : Spdm) : (s.setConn i c).pending = s.pending := by simp [State.setConn]
@[simp] theorem State.spdmAnswer_pending (s : State) (i : MgtIface) (r : SpdmRsp) : (s.spdmAnswer i r).pending = s.pending := by
  simp [State.spdmAnswer]
@[simp] theorem State.spdm_pending (s : State) (i : MgtIface) (early : Bool) (stage : Nat) (f : State → State) (hf : KeepsPending f) :
    (s.spdm i early stage f).pending = s.pending := by
  simp [State.spdm, hf.eq]
@[simp] theorem State.large_pending (s : State) (i : MgtIface) (r : SpdmRsp) : (s.large i r).pending = s.pending := by simp [State.large]
@[simp] theorem State.keyed_pending (s : State) (i : MgtIface) (f : State → State) (hf : KeepsPending f) :
    (s.keyed i f).pending = s.pending := by
  simp [State.keyed, hf.eq]
@[simp] theorem State.sign_snd_pending (s : State) (msg : Bytes) : (s.sign msg).2.pending = s.pending := by simp [State.sign]
@[simp] theorem execGetVersion_keepsQueue (i : MgtIface) (s : State) : KeepsQueue s (execGetVersion i s) := by simp [execGetVersion]
@[simp] theorem execGetCapabilities_keepsQueue (i : MgtIface) (s : State) : KeepsQueue s (execGetCapabilities i s) := by
  simp [execGetCapabilities]
@[simp] theorem execNegotiateAlgorithms_keepsQueue (i : MgtIface) (s : State) : KeepsQueue s (execNegotiateAlgorithms i s) := by
  simp [execNegotiateAlgorithms]
@[simp] theorem execGetDigests_keepsQueue (i : MgtIface) (s : State) : KeepsQueue s (execGetDigests i s) := by simp [execGetDigests]
@[simp] theorem execGetCertificate_keepsQueue (i : MgtIface) (slot off len : Nat) (s : State) :
    KeepsQueue s (execGetCertificate i slot off len s) :=
  ⟨_, rfl, State.spdm_pending _ _ _ _ _ fun t => State.keyed_pending _ _ _ fun t => by split <;> simp⟩
@[simp] theorem execChallenge_keepsQueue (i : MgtIface) (slot : Nat) (nonce : Bytes) (s : State) :
    KeepsQueue s (execChallenge i slot nonce s) := by
  simp [execChallenge]
@[simp] theorem execGetMeasurements_keepsQueue (i : MgtIface) (index : BitVec 8) (signed : Bool) (nonce : Bytes) (s : State) :
    KeepsQueue s (execGetMeasurements i index signed nonce s) := by
  simp [execGetMeasurements]
@[simp] theorem execKeyExchange_keepsQueue (i : MgtIface) (reqSession : BitVec 16) (share : Bytes) (s : State) :
    KeepsQueue s (execKeyExchange i reqSession share s) := by
  simp [execKeyExchange]
@[simp] theorem State.dropSession_pending (s : State) (session : W32) : (s.dropSession session).pending = s.pending := by
  simp [State.dropSession]
@[simp] theorem execFinish_keepsQueue (i : MgtIface) (session : W32) (macOk : Bool) (s : State) :
    KeepsQueue s (execFinish i session macOk s) := by
  simp [execFinish]
@[simp] theorem State.inSession_pending (s : State) (i : MgtIface) (session : W32) (f : State → State) (hf : KeepsPending f) :
    (s.inSession i session f).pending = s.pending := by
  simp [State.inSession, hf.eq]
@[simp] theorem execSpdmHeartbeat_keepsQueue (i : MgtIface) (session : W32) (s : State) : KeepsQueue s (execSpdmHeartbeat i session s) := by
  simp [execSpdmHeartbeat]
@[simp] theorem execKeyUpdate_keepsQueue (i : MgtIface) (session : W32) (s : State) : KeepsQueue s (execKeyUpdate i session s) := by
  simp [execKeyUpdate]
@[simp] theorem execEndSession_keepsQueue (i : MgtIface) (session : W32) (s : State) : KeepsQueue s (execEndSession i session s) := by
  simp [execEndSession]
@[simp] theorem execChunkGet_keepsQueue (i : MgtIface) (chunk : Nat) (s : State) : KeepsQueue s (execChunkGet i chunk s) :=
  ⟨_, rfl, State.spdm_pending _ _ _ _ _ fun t => by split <;> simp⟩

/-! ### The DDR5 tier (Tier) -/

@[simp] theorem State.refuseAck_pending (s : State) (x : Ack) : (s.refuseAck x).pending = s.pending := by
  simp only [State.refuseAck]; split <;> simp
@[simp] theorem State.ddrRefuse_pending (s : State) (x : Writer) : (s.ddrRefuse x).pending = s.pending := by
  fun_cases State.ddrRefuse <;> simp
@[simp] theorem State.dropDdr_pending (s : State) : s.dropDdr.pending = s.pending := by simp [State.dropDdr]
@[simp] theorem execDdrChannelFail_keepsQueue (n : Fin 8) (lost : Nat) (s : State) : KeepsQueue s (execDdrChannelFail n lost s) := by
  simp [execDdrChannelFail]

/-! ### Power, resets and bring-up (Rst) -/

@[simp] theorem State.setPhase_pending (s : State) (phase code : Nat) : (s.setPhase phase code).pending = s.pending := by
  simp [State.setPhase]
@[simp] theorem State.setCause_pending (s : State) (cause : Nat) : (s.setCause cause).pending = s.pending := by simp [State.setCause]
@[simp] theorem State.cutCommit_pending (s : State) : s.cutCommit.pending = s.pending := by simp [State.cutCommit]
@[simp] theorem State.coldReset_pending (s : State) (cause : Nat) : (s.coldReset cause).pending = s.pending := by simp [State.coldReset]
@[simp] theorem State.coldTrigger_pending (s : State) (cause : Nat) : (s.coldTrigger cause).pending = s.pending := by
  simp [State.coldTrigger]
@[simp] theorem execRstN_keepsQueue (s : State) : KeepsQueue s (execRstN s) := by simp [execRstN]
@[simp] theorem execRstCtrlCold_keepsQueue (s : State) : KeepsQueue s (execRstCtrlCold s) := by simp [execRstCtrlCold]
@[simp] theorem execThermalResetRelease_keepsQueue (maxTempC : BitVec 8) (s : State) : KeepsQueue s (execThermalResetRelease maxTempC s) :=
  ⟨_, rfl, by split <;> simp⟩
@[simp] theorem State.warmSettle_pending (s : State) : s.warmSettle.pending = s.pending := by simp [State.warmSettle]
@[simp] theorem State.warmClear_pending (s : State) : s.warmClear.pending = s.pending := by simp [State.warmClear]
@[simp] theorem State.abortScrub_pending (s : State) : s.abortScrub.pending = s.pending := by simp only [State.abortScrub]; split <;> simp
@[simp] theorem State.startP2_pending (s : State) : s.startP2.pending = s.pending := by simp [State.startP2]
@[simp] theorem State.warmTrigger_pending (s : State) (cause : Nat) : (s.warmTrigger cause).pending = s.pending := by
  have board : ∀ (t : State) b, ({ t with board := b } : State).pending = t.pending := fun _ _ => rfl
  have start : (if s.board.waiting then s.warmClear else s.startP2).pending = s.pending := by simp
  fun_cases State.warmTrigger
  · rfl
  · rw [State.setReg_pending, State.setCause_pending, State.abortScrub_pending, start]
  · rw [board, State.setReg_pending, State.setCause_pending, State.abortScrub_pending, start]
@[simp] theorem execWarmN_keepsQueue (s : State) : KeepsQueue s (execWarmN s) := by simp [execWarmN]
@[simp] theorem execRstCtrlWarm_keepsQueue (s : State) : KeepsQueue s (execRstCtrlWarm s) := by simp [execRstCtrlWarm]
@[simp] theorem execPowerUp_keepsQueue (s : State) : KeepsQueue s (execPowerUp s) := by simp [execPowerUp]
@[simp] theorem State.powerDown_pending (s : State) (under : Bool) : (s.powerDown under).pending = s.pending := by simp [State.powerDown]
@[simp] theorem execInputUndervolt_keepsQueue (s : State) : KeepsQueue s (execInputUndervolt s) := by simp [execInputUndervolt]
@[simp] theorem execOvercurrentTrip_keepsQueue (s : State) : KeepsQueue s (execOvercurrentTrip s) := by simp [execOvercurrentTrip]
@[simp] theorem execPwrEnRise_keepsQueue (s : State) : KeepsQueue s (execPwrEnRise s) := by simp [execPwrEnRise]
@[simp] theorem State.cagesOff_pending (s : State) : s.cagesOff.pending = s.pending := by simp [State.cagesOff]
@[simp] theorem State.railsOff_pending (s : State) (code : Nat) : (s.railsOff code).pending = s.pending := by simp [State.railsOff]
@[simp] theorem execRstPowerOff_keepsQueue (s : State) : KeepsQueue s (execRstPowerOff s) := by simp [execRstPowerOff]
@[simp] theorem execRstThermal_keepsQueue (tempC : BitVec 8) (s : State) : KeepsQueue s (execRstThermal tempC s) := by simp [execRstThermal]
@[simp] theorem State.stopBringup_pending (s : State) (phase code : Nat) : (s.stopBringup phase code).pending = s.pending := by
  simp [State.stopBringup]
@[simp] theorem State.logBoot_pending (s : State) (plain b : Bool) : (s.logBoot plain b).pending = s.pending := by simp [State.logBoot]
@[simp] theorem State.endP0_pending (s : State) (o : BringupObs) : (s.endP0 o).pending = s.pending := by
  simp only [State.endP0]; split <;> simp
@[simp] theorem State.newAk_pending (s : State) : s.newAk.pending = s.pending := by simp [State.newAk]
@[simp] theorem State.endP1_pending (s : State) (o : BringupObs) : (s.endP1 o).pending = s.pending := by simp [State.endP1]
@[simp] theorem State.applyPlan_pending (s : State) : s.applyPlan.pending = s.pending := by simp only [State.applyPlan]; split <;> simp
@[simp] theorem State.endP2_pending (s : State) (o : BringupObs) : (s.endP2 o).pending = s.pending := by
  simp only [State.endP2]
  split
  · simp
  · split
    · simp
    · split <;> simp
@[simp] theorem State.readRdimms_pending (s : State) (l : List (Option Rdimm)) : (s.readRdimms l).pending = s.pending := by
  simp only [State.readRdimms]
  split
  · rw [State.setPairVal_pending, State.setBits_pending, State.foldl_pending _ (fun c t => by dsimp only; split <;> simp)]
  · rw [State.ite_pending, State.logAdd_pending, State.setPairVal_pending, State.setBits_pending,
      State.foldl_pending _ (fun c t => by dsimp only; split <;> simp), ite_self]
@[simp] theorem State.endP3_pending (s : State) (o : BringupObs) : (s.endP3 o).pending = s.pending := by
  simp only [State.endP3]; split <;> simp
@[simp] theorem State.endP4_pending (s : State) (o : BringupObs) : (s.endP4 o).pending = s.pending := by simp [State.endP4]
@[simp] theorem execBringupPhaseEnd_keepsQueue (o : BringupObs) (s : State) : KeepsQueue s (execBringupPhaseEnd o s) :=
  ⟨_, rfl, by
    split
    · simp
    · split <;> simp⟩
@[simp] theorem State.resetPlain_pending (s : State) (p : Nat) : (s.resetPlain p).pending = s.pending := by simp [State.resetPlain]
@[simp] theorem State.startCtxReset_pending (s : State) (m : Nat) : (s.startCtxReset m).pending = s.pending := by simp [State.startCtxReset]
@[simp] theorem State.writeRstCtx_pending (s : State) (mask : BitVec 16) : (s.writeRstCtx mask).pending = s.pending := by
  simp [State.writeRstCtx]
@[simp] theorem execRstCtx_keepsQueue (mask : BitVec 16) (s : State) : KeepsQueue s (execRstCtx mask s) := by simp [execRstCtx]
@[simp] theorem State.ckpReset_pending (s : State) (m : Nat) : (s.ckpReset m).pending = s.pending := by simp [State.ckpReset]
@[simp] theorem State.ethReset_pending (s : State) (m : Nat) : (s.ethReset m).pending = s.pending := by simp [State.ethReset]
@[simp] theorem State.endXfer_pending (s : State) (t : Xfer) : (s.endXfer t).pending = s.pending := by
  simp only [State.endXfer]
  split
  · simp
  · split
    · simp
    · split <;> simp
@[simp] theorem State.failXfers_pending (s : State) (m : Nat) : (s.failXfers m).pending = s.pending := by simp [State.failXfers]
@[simp] theorem State.ctxClear_pending (s : State) (m : Nat) : (s.ctxClear m).pending = s.pending := by simp [State.ctxClear]
@[simp] theorem execCtxResetApply_keepsQueue (m : Fin 16) (s : State) : KeepsQueue s (execCtxResetApply m s) := by simp [execCtxResetApply]

/-! ### Register writes (RegWrite) -/

@[simp] theorem State.putReg_pending (s : State) (off : Nat) (value : W32) : (s.putReg off value).pending = s.pending := by
  simp only [State.putReg]
  split
  · simp
  · split <;> simp
@[simp] theorem State.putIf_pending (s : State) (ok : Bool) (v off : Nat) (value : W32) : (s.putIf ok v off value).pending = s.pending := by
  simp [State.putIf]
@[simp] theorem State.putKeep_pending (s : State) (keep : W32) (v off : Nat) (value : W32) :
    (s.putKeep keep v off value).pending = s.pending := by
  simp [State.putKeep]
@[simp] theorem State.writePlainCtx_pending (s : State) (v p off : Nat) (value : W32) :
    (s.writePlainCtx v p off value).pending = s.pending := by
  simp [State.writePlainCtx]
@[simp] theorem State.writeRun_pending (s : State) (v m off lo hi : Nat) (value : W32) :
    (s.writeRun v m off lo hi value).pending = s.pending := by
  simp [State.writeRun]
@[simp] theorem State.writeCmpCtx_pending (s : State) (v m off : Nat) (value : W32) :
    (s.writeCmpCtx v m off value).pending = s.pending := by
  simp [State.writeCmpCtx]
@[simp] theorem State.writeObj_pending (s : State) (v : Nat) (value : W32) : (s.writeObj v value).pending = s.pending := by
  simp [State.writeObj]
@[simp] theorem State.writeRegion_pending (s : State) (v n off : Nat) (value : W32) :
    (s.writeRegion v n off value).pending = s.pending := by
  simp [State.writeRegion]
@[simp] theorem State.writeCtxCtrl_pending (s : State) (v m off : Nat) (value : W32) :
    (s.writeCtxCtrl v m off value).pending = s.pending := by
  simp [State.writeCtxCtrl]
@[simp] theorem State.writeColCfg_pending (s : State) (v k off : Nat) (value : W32) :
    (s.writeColCfg v k off value).pending = s.pending := by
  simp [State.writeColCfg]
@[simp] theorem State.writeColCtrl_pending (s : State) (k off : Nat) (value : W32) : (s.writeColCtrl k off value).pending = s.pending := by
  simp [State.writeColCtrl]
@[simp] theorem State.writeMsix_pending (s : State) (off : Nat) (value : W32) : (s.writeMsix off value).pending = s.pending := by
  simp [State.writeMsix]
@[simp] theorem State.writeHdm_pending (s : State) (off : Nat) (value : W32) : (s.writeHdm off value).pending = s.pending := by
  simp [State.writeHdm]
@[simp] theorem State.writePort_pending (s : State) (p off : Nat) (value : W32) : (s.writePort p off value).pending = s.pending := by
  simp [State.writePort]
@[simp] theorem State.writeSel_pending (s : State) (t : EthTable) (value : W32) : (s.writeSel t value).pending = s.pending := by
  simp [State.writeSel]
@[simp] theorem State.writeCkp_pending (s : State) (v off : Nat) (value : W32) : (s.writeCkp v off value).pending = s.pending := by
  simp [State.writeCkp]
@[simp] theorem State.writeDbg_pending (s : State) (v off : Nat) (value : W32) : (s.writeDbg v off value).pending = s.pending := by
  simp [State.writeDbg]
@[simp] theorem State.writeTraceCfg_pending (s : State) (v m off : Nat) (value : W32) :
    (s.writeTraceCfg v m off value).pending = s.pending := by
  simp [State.writeTraceCfg]
@[simp] theorem State.writeWinBase_pending (s : State) (v off : Nat) (value : W32) : (s.writeWinBase v off value).pending = s.pending := by
  simp [State.writeWinBase]
@[simp] theorem State.writeRst_pending (s : State) (value : W32) : (s.writeRst value).pending = s.pending := by simp [State.writeRst]
@[simp] theorem nextOf_pending (s : State) {r : Result} (h : KeepsQueue s r) : (nextOf s r).pending = s.pending := by
  obtain ⟨t, rfl, e⟩ := h
  exact e
@[simp] theorem State.writeMbCmd_pending (s : State) (value : W32) : (s.writeMbCmd value).pending = s.pending := by
  simp only [State.writeMbCmd]; split <;> simp
@[simp] theorem State.writeRow_pending (s : State) (v off : Nat) (value : W32) (r : RegRow) :
    (s.writeRow v off value r).pending = s.pending := by
  simp only [State.writeRow]; split <;> simp
@[simp] theorem State.writeReg_pending (s : State) (v off : Nat) (value : W32) : (s.writeReg v off value).pending = s.pending := by
  simp only [State.writeReg]; split <;> simp
@[simp] theorem execRegWrite_keepsQueue (v off : Nat) (value : W32) (s : State) : KeepsQueue s (execRegWrite v off value s) := by
  simp [execRegWrite]
@[simp] theorem execPairHiWrite_keepsQueue (v off : Nat) (value : W32) (s : State) : KeepsQueue s (execPairHiWrite v off value s) :=
  ⟨_, rfl, by split <;> simp⟩
@[simp] theorem execSynObjValueWrite_keepsQueue (value : W32) (s : State) : KeepsQueue s (execSynObjValueWrite value s) := by
  simp [execSynObjValueWrite]

/-! ### Every command -/

/-- Each arm of `exec` is the effect of its command, which keeps the queue. -/
theorem exec_keepsQueue (c : Instr) (s : State) : KeepsQueue s (exec c s) := by
  cases c <;> simp [exec]

/-- Settles O2, by cases on the command: each effect answers a next state, and each operation it is made of keeps the queue. -/
theorem everyCommandAnswersAndKeepsQueue : Obligations.EveryCommandAnswersAndKeepsQueue :=
  fun c s => exec_keepsQueue c s

end Sys2Proof.Machine

/-! SUPPORT. The event log as an obligation speaks of it, and the plain registers. -/

namespace Sys2Proof.Machine

open Sys2Proof.Claims

/-! ### What an entry of the log records -/

/-- An entry of the log shows the KIND and the CODE it was given (R605, R606). -/
theorem State.logAdd_logged (s : State) (kind : Nat) (c : Option Nat) (code cls idx a b e : Nat) (hk : kind < 2 ^ 8) (hc : code < 2 ^ 16) :
    Logged (s.logAdd kind c code cls idx a b e) kind code := by
  obtain ⟨x, hlog, -, h3, -⟩ := s.logAdd_log kind c code cls idx a b e
  refine ⟨x, s.log.take 16383, hlog, ?_, ?_⟩ <;>
    · cases c <;> simp only [h3, bits, BitVec.toNat_ofNat, Nat.shiftRight_eq_div_pow] <;> omega

theorem State.logAdd_reg_some (s : State) (kind m code cls idx a b e o : Nat) :
    (s.logAdd kind (some m) code cls idx a b e).reg o = if o = 0xC8100 + 4 * m then s.logHead + 1 else s.reg o :=
  State.reg_setReg ..

theorem State.logAdd_reg_none (s : State) (kind code cls idx a b e o : Nat) : (s.logAdd kind none code cls idx a b e).reg o = s.reg o := rfl

/-- An entry for the requester `v` changes LOG_CTX_LAST of its context only, where it is one (R610). -/
theorem State.logAdd_reg_view (s : State) (kind v code cls idx a b e o : Nat) :
    (s.logAdd kind (if v < 16 then some v else none) code cls idx a b e).reg o =
      if v < 16 ∧ o = 0xC8100 + 4 * v then s.logHead + 1 else s.reg o := by
  by_cases h : v < 16
  · simp [h, State.logAdd_reg_some]
  · simp [h, State.logAdd_reg_none]

theorem State.discard_logged (s : State) (v off : Nat) (value : W32) : Logged (s.discard v off value) 0x02 0 :=
  s.logAdd_logged _ _ _ _ _ _ _ _ (by decide) (by decide)

theorem State.discard_reg (s : State) (v off : Nat) (value : W32) (o : Nat) :
    (s.discard v off value).reg o = if v < 16 ∧ o = 0xC8100 + 4 * v then s.logHead + 1 else s.reg o :=
  s.logAdd_reg_view ..

theorem State.discard_frame (s : State) (v off : Nat) (value : W32) :
    s.discard v off value = { s with log := (s.discard v off value).log, logHead := (s.discard v off value).logHead,
                                      regs := (s.discard v off value).regs } :=
  (s.logAdd_frame ..).trans (by rw [← State.logAdd_logHead]; rfl)

/-- The entry of a requester that is no context leaves the registers alone. -/
theorem State.discard_regs (s : State) (v off : Nat) (value : W32) (h : 16 ≤ v) : (s.discard v off value).regs = s.regs := by
  simp [State.discard, Nat.not_lt.mpr h, State.logAdd]

/-! ### A plain register -/

theorem State.shown_of_plain {s : State} {v off : Nat} {w : RegRow} (hw : regRow off = some w) (hk : w.kind = .plain) : s.shown v off = s.reg off := by
  simp [State.shown, hw, hk]

theorem State.showsFree_of_plain {s : State} {off : Nat} {w : RegRow} (hw : regRow off = some w) (hk : w.kind = .plain) : s.showsFree off = false := by
  simp [State.showsFree, hw, hk]

/-- A write that its requester may make of a register with no effect of its own (R8, R14, R631). -/
theorem State.writeReg_of_plain {s : State} {v off : Nat} {w : RegRow} (value : W32) (ready : s.ready = true) (on : s.mapOn v = true)
    (hw : regRow off = some w) (hk : w.kind = .plain) (may : s.mayAccess v off = true) : s.writeReg v off value = s.putReg off value := by
  simp [State.writeReg, hw, on, may, ready, State.writeRow, hk]

/-- A write that its requester may not make (R492). -/
theorem State.writeReg_of_barred {s : State} {v off : Nat} {w : RegRow} (value : W32) (on : s.mapOn v = true) (hw : regRow off = some w)
    (may : s.mayAccess v off = false) : s.writeReg v off value = s.discard v off value := by
  simp [State.writeReg, hw, on, may]

/-- A read of a register that its requester does not reach shows zero (R492). -/
theorem State.readReg_of_barred {s : State} {v off : Nat} (may : s.mayAccess v off = false) : s.readReg v off = (0, s) := by
  simp [State.readReg, may]

/-- A read of a plain register by a requester that reaches it, by its half (R12, R13). -/
theorem State.readReg_of_plain {s : State} {v off : Nat} {w : RegRow} (ready : s.ready = true) (hw : regRow off = some w) (hk : w.kind = .plain)
    (may : s.mayAccess v off = true) : s.readReg v off = match w.half with
      | .single => (s.reg off, s)
      | .lo => (s.reg off, { s with capt := storePut (fun _ => none) s.capt (v * 2 ^ 21 + off) (some (s.shown v (off + 4))) })
      | .hi => match storeGet (fun _ => none) s.capt (v * 2 ^ 21 + off - 4) with
        | some h => (h, { s with capt := storePut (fun _ => none) s.capt (v * 2 ^ 21 + off - 4) none })
        | none => (s.reg off, s) := by
  simp only [State.readReg, may, ready, hw, State.showsFree_of_plain hw hk, State.shown_of_plain hw hk, b2n]
  rfl

/-- A read that arrives at an aligned register answers what the register shows (R8). -/
theorem answers_pairLoRead {s : State} {v off : Nat} (on : s.mapOn v = true) (al : off % 4 = 0) :
    Answers (.pairLoRead v off) s
      { (s.readReg v off).2 with hostTx := (s.readReg v off).2.hostTx ++ [.regData v off (s.readReg v off).1] } := by
  simp [Answers, exec, execPairLoRead, on, al]

theorem answers_regWrite {s : State} {v off : Nat} (value : W32) (al : off % 4 = 0) : Answers (.regWrite v off value) s (s.writeReg v off value) := by
  simp [Answers, exec, execRegWrite, al]

theorem answers_pairHiWrite {s : State} {v off : Nat} {w : RegRow} (value : W32) (hw : regRow off = some w) (hh : w.half = .hi) :
    Answers (.pairHiWrite v off value) s (s.writeReg v off value) := by
  simp [Answers, exec, execPairHiWrite, hw, hh]

/-- An access that is not an aligned access of 32 bits is logged, and a read of it shows zero (R11). -/
theorem answers_regMisaligned {s : State} {v off size : Nat} (write : Bool) (on : s.mapOn v = true) (bad : size ≠ 4 ∨ off % 4 ≠ 0) :
    Answers (.regMisaligned v off size write) s
      { s.logAdd logMisaligned (if v < 16 then some v else none) 0 0 0 off size v with
        hostTx := s.hostTx ++ if write then [] else [.regData v off 0] } := by
  have aligned : (decide (size = 4) && decide (off % 4 = 0)) = false := by
    rcases bad with size | off <;> simp only [*, decide_false, Bool.false_and, Bool.and_false]
  have tx : (s.logAdd logMisaligned (if v < 16 then some v else none) 0 0 0 off size v).hostTx = s.hostTx := by rw [State.logAdd_frame]
  simp only [Answers, exec, execRegMisaligned, on, aligned]
  generalize s.logAdd logMisaligned (if v < 16 then some v else none) 0 0 0 off size v = t at tx ⊢
  cases write <;> simp [← tx]

/-- What a write of a register puts there, by its half (R12, R14). -/
theorem State.putReg_single {s : State} {off : Nat} {w : RegRow} (value : W32) (hw : regRow off = some w) (hh : w.half = .single) :
    s.putReg off value = s.setReg off (w.merge (s.reg off) value) := by
  simp [State.putReg, hw, hh]

theorem State.putReg_hi {s : State} {off : Nat} {w : RegRow} (value : W32) (hw : regRow off = some w) (hh : w.half = .hi) (rw' : w.rw ≠ 0) :
    s.putReg off value = s.applyPair (off - 4) (s.heldLo (off - 4)) (value &&& BitVec.ofNat 32 w.rw) := by
  simp [State.putReg, hw, hh, rw']

/-- Both halves of a pair after a write applies them (R12). -/
theorem State.reg_applyPair (s : State) (lo : Nat) (l h : W32) (o : Nat) :
    (s.applyPair lo l h).reg o = if o = lo + 4 then h else if o = lo then l else s.reg o :=
  (State.reg_setReg ..).trans (by rw [State.reg_setReg])

/-! ### The clauses about a plain register that a requester reaches, and about the accesses that are refused -/

section

variable {s : State} {v off : Nat} {w : RegRow} (on : s.mapOn v = true) (ready : s.ready = true) (al : off % 4 = 0) (hw : regRow off = some w)
  (hk : w.kind = .plain)

include on ready al hw hk in
theorem regWrite_merges (value : W32) (may : s.mayAccess v off = true) (hh : w.half = .single) :
    ∃ t, Answers (.regWrite v off value) s t ∧ t.reg off = w.merge (s.reg off) value ∧ (∀ o, o ≠ off → t.reg o = s.reg o) ∧
      t = { s with regs := t.regs } := by
  refine ⟨_, answers_regWrite value al, ?_⟩
  rw [State.writeReg_of_plain value ready on hw hk may, State.putReg_single value hw hh]
  exact ⟨State.reg_setReg_same .., fun o h => (State.reg_setReg ..).trans (if_neg h), rfl⟩

include on ready hw hk in
theorem pairHiWrite_applies (value : W32) (may : s.mayAccess v off = true) (hh : w.half = .hi) (hrw : w.rw ≠ 0) (h4 : 4 ≤ off) :
    ∃ t, Answers (.pairHiWrite v off value) s t ∧ t.reg off = value &&& BitVec.ofNat 32 w.rw ∧ t.reg (off - 4) = s.heldLo (off - 4) ∧
      (∀ o, o ≠ off → o + 4 ≠ off → t.reg o = s.reg o) ∧ t = { s with regs := t.regs, held := t.held } := by
  refine ⟨_, answers_pairHiWrite value hw hh, ?_⟩
  rw [State.writeReg_of_plain value ready on hw hk may, State.putReg_hi value hw hh hrw]
  have pair : off - 4 + 4 = off := Nat.sub_add_cancel h4
  refine ⟨?_, ?_, fun o h h' => ?_, rfl⟩
  · rw [State.reg_applyPair, pair, if_pos rfl]
  · rw [State.reg_applyPair, if_neg (by omega), if_pos rfl]
  · rw [State.reg_applyPair, if_neg (by omega), if_neg (by omega)]

include on ready al hw hk in
theorem pairLoRead_shows (may : s.mayAccess v off = true) (hh : w.half = .single) :
    Answers (.pairLoRead v off) s { s with hostTx := s.hostTx ++ [.regData v off (s.reg off)] } := by
  simpa only [State.readReg_of_plain ready hw hk may, hh] using answers_pairLoRead on al

include on ready al hw hk in
theorem pairLoRead_captures (may : s.mayAccess v off = true) (hh : w.half = .lo) {x : RegRow} (hx : regRow (off + 4) = some x)
    (hxk : x.kind = .plain) :
    ∃ t, Answers (.pairLoRead v off) s t ∧ t.hostTx = s.hostTx ++ [.regData v off (s.reg off)] ∧
      storeGet (fun _ => none) t.capt (v * 2 ^ 21 + off) = some (s.reg (off + 4)) ∧ t = { s with capt := t.capt, hostTx := t.hostTx } := by
  refine ⟨_, answers_pairLoRead on al, ?_⟩
  rw [State.readReg_of_plain ready hw hk may, hh, State.shown_of_plain hx hxk]
  exact ⟨rfl, storeGet_storePut_same .., rfl⟩

include on ready al hw hk in
theorem pairLoRead_returns_captured (h : W32) (may : s.mayAccess v off = true) (hh : w.half = .hi)
    (hc : storeGet (fun _ => none) s.capt (v * 2 ^ 21 + off - 4) = some h) :
    ∃ t, Answers (.pairLoRead v off) s t ∧ t.hostTx = s.hostTx ++ [.regData v off h] ∧
      storeGet (fun _ => none) t.capt (v * 2 ^ 21 + off - 4) = none ∧ t = { s with capt := t.capt, hostTx := t.hostTx } := by
  refine ⟨_, answers_pairLoRead on al, ?_⟩
  rw [State.readReg_of_plain ready hw hk may, hh, hc]
  exact ⟨rfl, storeGet_storePut_same .., rfl⟩

include on al in
theorem pairLoRead_barred (may : s.mayAccess v off = false) :
    Answers (.pairLoRead v off) s { s with hostTx := s.hostTx ++ [.regData v off 0] } := by
  simpa only [State.readReg_of_barred may] using answers_pairLoRead on al

include on al hw in
theorem regWrite_barred (value : W32) (hv : v < 16) (may : s.mayAccess v off = false) :
    ∃ t, Answers (.regWrite v off value) s t ∧ Logged t 0x02 0 ∧ t = { s with log := t.log, logHead := t.logHead, regs := t.regs } ∧
      ∀ o, t.reg o = if o = 0xC8100 + 4 * v then s.logHead + 1 else s.reg o := by
  refine ⟨_, answers_regWrite value al, ?_⟩
  rw [State.writeReg_of_barred value on hw may]
  exact ⟨State.discard_logged .., State.discard_frame .., fun o => by simp [State.discard_reg, hv]⟩

include on in
theorem regMisaligned_logs {size bad : Nat} (write : Bool) (h : size ≠ 4 ∨ bad % 4 ≠ 0) :
    ∃ t, Answers (.regMisaligned v bad size write) s t ∧ Logged t 0x03 0 ∧
      t.hostTx = s.hostTx ++ (if write then [] else [.regData v bad 0]) ∧
      (∀ o, t.reg o = (if v < 16 ∧ o = 0xC8100 + 4 * v then s.logHead + 1 else s.reg o)) ∧
      t = { s with log := t.log, logHead := t.logHead, regs := t.regs, hostTx := t.hostTx } := by
  refine ⟨_, answers_regMisaligned write on h, ?_, rfl, fun o => s.logAdd_reg_view .., ?_⟩
  · exact s.logAdd_logged _ _ _ _ _ _ _ _ (by decide) (by decide)
  · rw [State.logAdd_frame]

end

/-- Settles O55: what a requester may write goes by the half and the kind of the register's row, and the rest ends in the event log. -/
theorem registerAccessesAreTyped : Obligations.RegisterAccessesAreTyped := by
  intro s v off value w ready on al hw hk
  refine ⟨regWrite_merges on ready al hw hk value, fun may hh => ⟨_, pairLoRead_shows on ready al hw hk may hh, rfl⟩,
    fun h may hh _ => pairLoRead_returns_captured on ready al hw hk h may hh, pairHiWrite_applies on ready hw hk value, ?_,
    fun hv may => ⟨pairLoRead_barred on al may, regWrite_barred on al hw value hv may⟩, fun _ write _ => regMisaligned_logs on write⟩
  intro may hh plain isRow
  obtain ⟨x, hx⟩ := Option.isSome_iff_exists.mp isRow
  exact pairLoRead_captures on ready al hw hk may hh hx (plain x hx)

end Sys2Proof.Machine

/-! SUPPORT. The window's moves, the bias of its pages, and the dirty lines that the host gives back. -/

namespace Sys2Proof.Machine

open Sys2Proof.Claims

/-! ### Whole bytes in device memory -/

/-- A whole byte replaces what was there. -/
theorem maskByte_whole (old v : Byte) : maskByte old v 0xFF#8 = v := by
  simp only [maskByte, show 0xFF#8 = BitVec.allOnes 8 from rfl, BitVec.not_allOnes, BitVec.and_zero, BitVec.and_allOnes, BitVec.zero_or]

theorem mem_wholeBytes {a : Nat} {bs : Bytes} {b : Nat × Byte × Byte} (h : b ∈ wholeBytes a bs) : a ≤ b.1 ∧ b.1 < a + bs.length := by
  induction bs generalizing a with
  | nil => cases h
  | cons v bs ih =>
    rcases List.mem_cons.mp h with rfl | h
    · simp
    · have := ih h
      simp only [List.length_cons]
      omega

/-- Whole bytes written are what is read there. -/
theorem putMasked_wholeBytes_get (bs : Bytes) (st : Store Byte) (a j : Nat) (h : j < bs.length) :
    storeGet memDefault (putMasked st (wholeBytes a bs)) (a + j) = bs[j] := by
  induction bs generalizing st a j with
  | nil => cases h
  | cons v bs ih =>
    cases j with
    | zero =>
      have later : ∀ b ∈ wholeBytes (a + 1) bs, b.1 ≠ a := fun b hb => by have := mem_wholeBytes hb; omega
      rw [wholeBytes, putMasked, Nat.add_zero a, putMasked_of_ne _ _ _ later, storeGet_storePut_same, maskByte_whole]
      rfl
    | succ j =>
      rw [wholeBytes, putMasked, show a + (j + 1) = a + 1 + j by omega, ih]
      rfl

/-- Where no write waits and no tier has lost its bytes, a byte reads as device memory holds it. -/
theorem State.byte_of_mem {s : State} (a : Nat) (wait : s.cow.waiting = []) (lost : s.ddrLost = none) : s.byte a = storeGet memDefault s.mem a := by
  rw [s.byte_of_none a wait]
  simp [State.cell, lost]

/-! ### Register pairs -/

theorem State.pairVal_setReg_of_ne (s : State) {lo o : Nat} (v : W32) (h : lo ≠ o) (h' : lo + 4 ≠ o) : (s.setReg o v).pairVal lo = s.pairVal lo := by
  simp [State.pairVal, State.reg_setReg, h, h']

/-- A pair that the device sets shows the value (R12). -/
theorem State.pairVal_setPairVal (s : State) (lo : Nat) {v : Nat} (h : v < 2 ^ 64) : (s.setPairVal lo v).pairVal lo = v := by
  have low : ((s.setPairVal lo v).reg lo).toNat = v % 2 ^ 32 := by simp [State.setPairVal, State.reg_setReg]
  have high : ((s.setPairVal lo v).reg (lo + 4)).toNat = v / 2 ^ 32 := by
    simp only [State.setPairVal, State.reg_setReg_same, BitVec.toNat_ofNat]
    exact Nat.mod_eq_of_lt (by omega)
  rw [State.pairVal, low, high]
  omega

theorem State.pairVal_congr {s t : State} (lo : Nat) (h : t.regs = s.regs) : t.pairVal lo = s.pairVal lo := by
  simp [State.pairVal, State.reg, h]

/-- A write that its requester may make reaches the register's own effect (R492, R631). -/
theorem State.regGate_of_ready {s : State} (v off : Nat) (value : W32) (f : State → State) (ready : s.ready = true) (reach : s.reaches v = true) :
    s.regGate true v off value f = f s := by
  simp [State.regGate, ready, reach]

theorem State.reaches_of_memOn {s : State} (v : Nat) (h : s.memOn = true) : s.reaches v = true := by simp [State.reaches, h]

/-! ### Dirty lines -/

/-- One dirty line is written where the window shows it, or dropped where the window or its tier has no place for it (R517). -/
def State.writeLine (s : State) (lo hi : Nat) (d : Nat × Bytes) : State :=
  if d.1 < lo || hi < d.1 + d.2.length || (ddrBase ≤ s.winBase + d.1 && s.ddrFailed) then s else s.write .host (wholeBytes (s.winBase + d.1) d.2)

theorem State.writeDirty_cons (s : State) (lo hi : Nat) (d : Nat × Bytes) (l : List (Nat × Bytes)) :
    s.writeDirty lo hi (d :: l) = (s.writeLine lo hi d).writeDirty lo hi l := rfl

theorem State.writeLine_frame (s : State) (lo hi : Nat) (d : Nat × Bytes) :
    s.writeLine lo hi d = { s with mem := (s.writeLine lo hi d).mem, poison := (s.writeLine lo hi d).poison, msc := (s.writeLine lo hi d).msc,
                                   cow := (s.writeLine lo hi d).cow } := by
  simp only [State.writeLine]
  split
  · rfl
  · exact State.write_frame ..

/-- Dirty lines change device memory only, and what copy-on-write holds back. -/
theorem State.writeDirty_frame (s : State) (lo hi : Nat) (l : List (Nat × Bytes)) :
    s.writeDirty lo hi l = { s with mem := (s.writeDirty lo hi l).mem, poison := (s.writeDirty lo hi l).poison, msc := (s.writeDirty lo hi l).msc,
                                    cow := (s.writeDirty lo hi l).cow } := by
  induction l generalizing s with
  | nil => rfl
  | cons d l ih => 
    rw [State.writeDirty_cons, ih]
    generalize (s.writeLine lo hi d).writeDirty lo hi l = t
    rw [State.writeLine_frame]

/-- Where copy-on-write is not active a dirty line is not held back (R423). -/
theorem State.writeLine_cow (s : State) (lo hi : Nat) (d : Nat × Bytes) (off : s.cowActive = false) : (s.writeLine lo hi d).cow = s.cow := by
  simp only [State.writeLine]
  split
  · rfl
  · rw [State.write_of_inactive _ _ _ _ off, State.apply_frame]

theorem State.cell_writeLine_of_ne (s : State) (lo hi : Nat) (d : Nat × Bytes) (a : Nat) (h : a < s.winBase + d.1 ∨ s.winBase + d.1 + d.2.length ≤ a) :
    (s.writeLine lo hi d).cell a = s.cell a := by
  simp only [State.writeLine]
  split
  · rfl
  · refine State.cell_write_of_ne _ _ _ _ _ fun b hb => ?_
    have := mem_wholeBytes hb
    omega

theorem State.writeDirty_cow (s : State) (lo hi : Nat) (l : List (Nat × Bytes)) (off : s.cowActive = false) : (s.writeDirty lo hi l).cow = s.cow := by
  induction l generalizing s with
  | nil => rfl
  | cons d l ih =>
    have off' : (s.writeLine lo hi d).cowActive = false := by rw [State.writeLine_frame]; exact off
    rw [State.writeDirty_cons, ih _ off', State.writeLine_cow _ _ _ _ off]

/-- Dirty lines change no byte outside them. -/
theorem State.cell_writeDirty_of_ne (s : State) (lo hi : Nat) (l : List (Nat × Bytes)) (a : Nat)
    (h : ∀ d ∈ l, a < s.winBase + d.1 ∨ s.winBase + d.1 + d.2.length ≤ a) : (s.writeDirty lo hi l).cell a = s.cell a := by
  induction l generalizing s with
  | nil => rfl
  | cons d l ih =>
    have base : (s.writeLine lo hi d).winBase = s.winBase := by rw [State.writeLine_frame]; rfl
    rw [State.writeDirty_cons, ih _ fun e he => base ▸ h e (List.mem_cons_of_mem _ he)]
    exact s.cell_writeLine_of_ne lo hi d a (h d (List.mem_cons_self ..))

/-- A dirty line within the window, applied at once, leaves its bytes in device memory. -/
theorem State.writeLine_mem {s : State} {lo hi : Nat} {d : Nat × Bytes} (off : s.cowActive = false) (fail : s.ddrFailed = false) (hlo : lo ≤ d.1)
    (hhi : d.1 + d.2.length ≤ hi) : (s.writeLine lo hi d).mem = putMasked s.mem (wholeBytes (s.winBase + d.1) d.2) := by
  simp only [State.writeLine, fail, Nat.not_lt.mpr hlo, Nat.not_lt.mpr hhi, Bool.and_false, decide_false, Bool.or_false]
  simp [State.write_of_inactive _ _ _ _ off, State.apply]

/-! ### The base of the window -/

/-- A new base comes into force with no access that waits (R517). -/
theorem State.winSwitch_of_idle {s : State} (base : Nat) (h : s.win.wait = []) :
    s.winSwitch base = { (s.setPairVal 0x18008 base).setReg 0x18004 0 with win := { s.win with moving := none, wait := [] } } := by
  simp only [State.winSwitch, h]
  rfl

theorem State.winSwitch_pairVal {s : State} {base : Nat} (h : s.win.wait = []) (hb : base < 2 ^ 64) : (s.winSwitch base).pairVal 0x18008 = base := by
  rw [State.winSwitch_of_idle base h]
  exact (State.pairVal_setReg_of_ne _ _ (by decide) (by decide)).trans (s.pairVal_setPairVal _ hb)

theorem State.winSwitch_status {s : State} (base : Nat) (h : s.win.wait = []) : (s.winSwitch base).reg 0x18004 = 0 := by
  rw [State.winSwitch_of_idle base h]
  exact State.reg_setReg_same ..

theorem State.winSwitch_frame {s : State} (base : Nat) (h : s.win.wait = []) :
    s.winSwitch base = { s with regs := (s.winSwitch base).regs, win := { s.win with moving := none, wait := [] } } := by
  rw [State.winSwitch_of_idle base h]
  rfl

/-! ### The window moves (R516, R517) -/

/-- The base that the held low half and the written high half give is one of 42 bits (R516). -/
theorem winBase_lt (l hi : W32) : (l &&& 0xFFE00000#32).toNat + bits hi 9 0 * 2 ^ 32 < 2 ^ 42 := by
  have low := (l &&& 0xFFE00000#32).isLt
  have high : bits hi 9 0 < 2 ^ 10 := Nat.mod_lt _ (by decide)
  omega

/-- The low half of a pair is held no longer (R12). -/
def State.releaseLo (s : State) (lo : Nat) : State := { s with held := storePut (fun _ => none) s.held lo none }

section

variable {s : State} {base : Nat} {hi : W32} (ready : s.ready = true) (on : s.memOn = true)
  (hb : base = (s.heldLo 0x18008 &&& 0xFFE00000#32).toNat + bits hi 9 0 * 2 ^ 32)

include ready on in
theorem answers_winMove : Answers (.winMove hi) s (s.winMove 16 hi) := by
  simp only [Answers, exec, execWinMove]
  rw [State.regGate_of_ready _ _ _ _ ready (State.reaches_of_memOn 16 on)]

include hb in
/-- A write of WIN_BASE_HI is discarded, waits for the host, or moves the window at once (R516, R517). -/
theorem State.winMove_eq : s.winMove 16 hi =
    if ! s.mapped base 0x20000000 then s.discard 16 0x1800C hi
    else if s.coherent then
      { (s.releaseLo 0x18008).setReg 0x18004 1 with
        win := { s.win with moving := some base }, hostTx := s.hostTx ++ [.backInvalidate 0 0x20000000] }
    else (s.releaseLo 0x18008).winSwitch base := by
  subst hb
  rfl

include hb in
theorem State.winMove_of_unmapped (h : s.mapped base 0x20000000 = false) : s.winMove 16 hi = s.discard 16 0x1800C hi := by
  rw [State.winMove_eq hb, h]
  rfl

include hb in
theorem State.winMove_alone (h : s.mapped base 0x20000000 = true) (alone : s.coherent = false) :
    s.winMove 16 hi = (s.releaseLo 0x18008).winSwitch base := by
  rw [State.winMove_eq hb, h, alone]
  rfl

include hb in
theorem State.winMove_coherent (h : s.mapped base 0x20000000 = true) (coh : s.coherent = true) :
    s.winMove 16 hi = { (s.releaseLo 0x18008).setReg 0x18004 1 with
      win := { s.win with moving := some base }, hostTx := s.hostTx ++ [.backInvalidate 0 0x20000000] } := by
  rw [State.winMove_eq hb, h, coh]
  rfl

include ready on hb in
theorem winMove_moves_at_once (h : s.mapped base 0x20000000 = true) (alone : s.coherent = false) (idle : s.win.wait = []) :
    ∃ t, Answers (.winMove hi) s t ∧ t.pairVal 0x18008 = base ∧ t.win.moving = none ∧ t.reg 0x18004 = 0 ∧
      t = { s with regs := t.regs, held := t.held, win := t.win } := by
  refine ⟨_, answers_winMove ready on, ?_⟩
  rw [State.winMove_alone hb h alone]
  have lt : base < 2 ^ 64 := hb ▸ Nat.lt_trans (winBase_lt _ _) (by decide)
  have idle' : (s.releaseLo 0x18008).win.wait = [] := idle
  refine ⟨State.winSwitch_pairVal idle' lt, ?_, State.winSwitch_status base idle', ?_⟩ <;> rw [State.winSwitch_frame base idle']
  rfl

include ready on hb in
theorem winMove_waits (h : s.mapped base 0x20000000 = true) (coh : s.coherent = true) :
    ∃ t, Answers (.winMove hi) s t ∧ t.win.moving = some base ∧ t.reg 0x18004 = 1 ∧ t.pairVal 0x18008 = s.pairVal 0x18008 ∧
      t.hostTx = s.hostTx ++ [.backInvalidate 0 0x20000000] ∧ t = { s with regs := t.regs, held := t.held, win := t.win, hostTx := t.hostTx } := by
  refine ⟨_, answers_winMove ready on, ?_⟩
  rw [State.winMove_coherent hb h coh]
  exact ⟨rfl, State.reg_setReg_same .., State.pairVal_setReg_of_ne _ _ (by decide) (by decide), rfl, rfl⟩

include ready on hb in
theorem winMove_discarded (h : s.mapped base 0x20000000 = false) :
    ∃ t, Answers (.winMove hi) s t ∧ Logged t 0x02 0 ∧ t.pairVal 0x18008 = s.pairVal 0x18008 ∧
      t = { s with log := t.log, logHead := t.logHead } := by
  refine ⟨_, answers_winMove ready on, ?_⟩
  rw [State.winMove_of_unmapped hb h]
  have regs : (s.discard 16 0x1800C hi).regs = s.regs := State.discard_regs _ _ _ _ (by decide)
  refine ⟨State.discard_logged .., State.pairVal_congr _ regs, ?_⟩
  exact (State.discard_frame ..).trans (by rw [regs])

end

/-- The host's answer lets the window move once its dirty lines are written (R517). -/
theorem answers_backInvalidationDone_move {s : State} {base : Nat} (dirty : List (Nat × Bytes)) (h : s.win.moving = some base) :
    Answers (.backInvalidationDone (.move dirty)) s ((s.writeDirty 0 winBytes dirty).winSwitch base) := by
  simp [Answers, exec, execBackInvalidationDone, h]

/-- The bytes that the host gives back are written at the old addresses before the window moves (R517). -/
theorem backInvalidationDone_moves {s : State} {base : Nat} (dirty : List (Nat × Bytes)) (hm : s.win.moving = some base) (lt : base < 2 ^ 64)
    (idle : s.win.wait = []) (held : NothingHeld s) (fail : s.ddrFailed = false) :
    ∃ t, Answers (.backInvalidationDone (.move dirty)) s t ∧ t.pairVal 0x18008 = base ∧ t.win.moving = none ∧ t.reg 0x18004 = 0 ∧
      (∀ off data, dirty = [(off, data)] → off + data.length ≤ 0x20000000 →
        ∀ j (h : j < data.length), t.byte (s.pairVal 0x18008 + off + j) = data[j]) ∧
      (∀ a, (∀ d ∈ dirty, a < s.pairVal 0x18008 + d.1 ∨ s.pairVal 0x18008 + d.1 + d.2.length ≤ a) → t.byte a = s.byte a) ∧
      t = { s with regs := t.regs, win := t.win, mem := t.mem, poison := t.poison, msc := t.msc } := by
  refine ⟨_, answers_backInvalidationDone_move dirty hm, ?_⟩
  have cow : (s.writeDirty 0 winBytes dirty).cow = s.cow := State.writeDirty_cow _ _ _ _ held.off
  have frame := s.writeDirty_frame 0 winBytes dirty
  rw [cow] at frame
  have idle' : (s.writeDirty 0 winBytes dirty).win.wait = [] := by rw [frame]; exact idle
  have bytes : ∀ a, ((s.writeDirty 0 winBytes dirty).winSwitch base).byte a = (s.writeDirty 0 winBytes dirty).cell a := by
    intro a
    rw [State.winSwitch_frame base idle']
    exact State.byte_of_none _ a (cow ▸ held.none)
  refine ⟨State.winSwitch_pairVal idle' lt, ?_, State.winSwitch_status base idle', ?_, fun a h => ?_, ?_⟩
  · rw [State.winSwitch_frame base idle']
  · rintro off data rfl inside j h
    have lost : ((s.writeDirty 0 winBytes [(off, data)]).winSwitch base).ddrLost = none := by
      rw [State.winSwitch_frame base idle', frame]
      exact held.tier fail
    have wait : ((s.writeDirty 0 winBytes [(off, data)]).winSwitch base).cow.waiting = [] := by
      rw [State.winSwitch_frame base idle']
      exact cow ▸ held.none
    have mem : ((s.writeDirty 0 winBytes [(off, data)]).winSwitch base).mem = putMasked s.mem (wholeBytes (s.winBase + off) data) := by
      rw [State.winSwitch_frame base idle']
      exact State.writeLine_mem held.off fail (Nat.zero_le _) inside
    rw [State.byte_of_mem _ wait lost, mem]
    exact putMasked_wholeBytes_get data s.mem (s.winBase + off) j h
  · rw [bytes, s.byte_of_none a held.none]
    exact s.cell_writeDirty_of_ne 0 winBytes dirty a h
  · rw [State.winSwitch_frame base idle', frame]

/-! ### The bias of pages (R519) -/

theorem State.coherent_setReg_of_ne (s : State) {o : Nat} (v : W32) (h : o ≠ 0x10004) : (s.setReg o v).coherent = s.coherent := by
  simp [State.coherent, State.cxl, State.reg_setReg, Ne.symm h]

theorem State.coherent_setBias (s : State) (k : Nat) (d : Bool) : (s.setBias k d).coherent = s.coherent := s.coherent_setReg_of_ne _ (by omega)

/-- Of a word whose bit `i` is replaced, the other bits stay. -/
theorem bit_replace (old v : W32) {i j : Nat} (hj : j < 32) :
    bit ((old &&& ~~~BitVec.ofNat 32 (2 ^ i)) ||| (v &&& BitVec.ofNat 32 (2 ^ i))) j = if j = i then bit v j else bit old j := by
  have mask : (BitVec.ofNat 32 (2 ^ i)).getLsbD j = decide (j = i) := by
    rw [BitVec.getLsbD_ofNat, Nat.testBit_two_pow]
    simp [hj, eq_comm]
  simp only [bit, BitVec.getLsbD_or, BitVec.getLsbD_and, BitVec.getLsbD_not, mask, hj]
  by_cases h : j = i <;> simp [h]

/-- The bias of a page set changes no other page. -/
theorem State.biasDevice_setBias (s : State) (k j : Nat) (d : Bool) : (s.setBias k d).biasDevice j = if j = k then d else s.biasDevice j := by
  have lt : j % 32 < 32 := Nat.mod_lt _ (by decide)
  have ones : bit (if d then 0xFFFFFFFF#32 else 0) (j % 32) = d := by
    cases d
    · exact BitVec.getLsbD_zero
    · exact (BitVec.getLsbD_allOnes (v := 32)).trans (decide_eq_true lt)
  simp only [State.biasDevice, State.setBias, State.reg_setBits]
  by_cases reg : j / 32 = k / 32
  · rw [if_pos (by rw [reg]), bit_replace _ _ lt, ones, reg]
    by_cases hj : j = k
    · rw [if_pos (by rw [hj]), if_pos hj]
    · rw [if_neg (by omega), if_neg hj]
  · rw [if_neg (by omega), if_neg fun h : j = k => reg (h ▸ rfl)]

/-- One bit of a WIN_BIAS register that goes to 1 (R519). -/
def State.biasPass (w : Nat) (s : State) (i : Nat) : State :=
  if ! s.coherent then s.setBias (32 * w + i) true
  else if s.win.pages.contains (32 * w + i) then s
  else { s with win := { s.win with pages := s.win.pages ++ [32 * w + i] },
                hostTx := s.hostTx ++ [.backInvalidate (2097152 * (32 * w + i)) 2097152] }

/-- The bits that go to 1 in a WIN_BIAS register, and the state in which those that go to 0 have gone (R519). -/
def State.biasNew (s : State) (w : Nat) (value : W32) : List Nat :=
  (List.range 32).filter fun i => bit value i && ! bit (s.reg (0x18020 + 4 * w)) i
def State.biasKept (s : State) (w : Nat) (value : W32) : State :=
  { s.setReg (0x18020 + 4 * w) (s.reg (0x18020 + 4 * w) &&& value) with
    win := { s.win with pages := s.win.pages.filter fun k => k / 32 ≠ w || bit value (k % 32) } }

theorem State.winBias_eq (s : State) (w : Nat) (value : W32) :
    s.winBias w value = (s.biasNew w value).foldl (State.biasPass w) (s.biasKept w value) := rfl

theorem State.mem_biasNew (s : State) {w i : Nat} (value : W32) (h : i < 32) :
    i ∈ s.biasNew w value ↔ bit value i = true ∧ s.biasDevice (32 * w + i) = false := by
  have hq : (32 * w + i) / 32 = w := by omega
  have hr : (32 * w + i) % 32 = i := by omega
  simp [State.biasNew, State.biasDevice, hq, hr, h]

theorem State.coherent_biasKept (s : State) (w : Nat) (value : W32) : (s.biasKept w value).coherent = s.coherent :=
  s.coherent_setReg_of_ne _ (by omega)

theorem State.biasDevice_biasKept (s : State) (w : Nat) (value : W32) (k : Nat) :
    (s.biasKept w value).biasDevice k = (s.biasDevice k && (k / 32 ≠ w || bit value (k % 32))) := by
  have read : ∀ o, (s.biasKept w value).reg o = (s.setReg (0x18020 + 4 * w) (s.reg (0x18020 + 4 * w) &&& value)).reg o := fun _ => rfl
  rw [State.biasDevice, read, State.reg_setReg]
  by_cases h : k / 32 = w
  · simp [State.biasDevice, h, bit]
  · have off : ¬ 0x18020 + 4 * (k / 32) = 0x18020 + 4 * w := by omega
    have other : decide (k / 32 ≠ w) = true := decide_eq_true h
    rw [if_neg off, other, Bool.true_or, Bool.and_true, State.biasDevice]

/-! #### Without coherence -/

theorem State.biasPass_alone {s : State} (w i : Nat) (alone : s.coherent = false) : s.biasPass w i = s.setBias (32 * w + i) true := by
  simp [State.biasPass, alone]

theorem State.foldl_biasPass_frame {s : State} (w : Nat) (l : List Nat) (alone : s.coherent = false) :
    l.foldl (State.biasPass w) s = { s with regs := (l.foldl (State.biasPass w) s).regs } := by
  induction l generalizing s with
  | nil => rfl
  | cons i l ih =>
    rw [List.foldl_cons, State.biasPass_alone w i alone, ih ((State.coherent_setBias ..).trans alone)]
    rfl

theorem State.biasDevice_foldl_biasPass {s : State} (w : Nat) (l : List Nat) (alone : s.coherent = false) (k : Nat) :
    (l.foldl (State.biasPass w) s).biasDevice k = true ↔ (∃ i ∈ l, k = 32 * w + i) ∨ s.biasDevice k = true := by
  induction l generalizing s with
  | nil => simp
  | cons i l ih =>
    rw [List.foldl_cons, State.biasPass_alone w i alone, ih ((State.coherent_setBias ..).trans alone), State.biasDevice_setBias]
    by_cases h : k = 32 * w + i <;> simp [h]

/-! #### In coherent operation -/

/-- Every page that waits has been asked for. -/
def State.PagesAsked (s : State) : Prop := ∀ k ∈ s.win.pages, .backInvalidate (2097152 * k) 2097152 ∈ s.hostTx

theorem State.biasPass_of_asked {s : State} {w i : Nat} (coh : s.coherent = true) (h : 32 * w + i ∈ s.win.pages) : s.biasPass w i = s := by
  simp [State.biasPass, coh, h]

theorem State.biasPass_of_new {s : State} {w i : Nat} (coh : s.coherent = true) (h : 32 * w + i ∉ s.win.pages) :
    s.biasPass w i = { s with win := { s.win with pages := s.win.pages ++ [32 * w + i] },
                              hostTx := s.hostTx ++ [.backInvalidate (2097152 * (32 * w + i)) 2097152] } := by
  simp [State.biasPass, coh, h]

theorem State.biasPass_regs {s : State} (w i : Nat) (coh : s.coherent = true) : (s.biasPass w i).regs = s.regs := by
  by_cases h : 32 * w + i ∈ s.win.pages
  · rw [State.biasPass_of_asked coh h]
  · rw [State.biasPass_of_new coh h]

theorem State.mem_pages_biasPass {s : State} (w i : Nat) (coh : s.coherent = true) (k : Nat) :
    k ∈ (s.biasPass w i).win.pages ↔ k = 32 * w + i ∨ k ∈ s.win.pages := by
  by_cases h : 32 * w + i ∈ s.win.pages
  · rw [State.biasPass_of_asked coh h]
    exact ⟨.inr, fun hk => hk.elim (fun e => e ▸ h) id⟩
  · rw [State.biasPass_of_new coh h]
    simp [or_comm]

theorem State.PagesAsked.biasPass {s : State} (w i : Nat) (coh : s.coherent = true) (h : s.PagesAsked) : (s.biasPass w i).PagesAsked := by
  by_cases hp : 32 * w + i ∈ s.win.pages
  · rwa [State.biasPass_of_asked coh hp]
  · rw [State.biasPass_of_new coh hp]
    intro k hk
    rcases List.mem_append.mp hk with old | new
    · exact List.mem_append_left _ (h k old)
    · rw [List.mem_singleton.mp new]
      exact List.mem_append_right _ (List.mem_singleton.mpr rfl)

/-- Bits that go to 1 in coherent operation leave the registers, and their pages wait, each asked for (R519). -/
theorem State.foldl_biasPass_coherent {s : State} (w : Nat) (l : List Nat) (coh : s.coherent = true) (asked : s.PagesAsked) :
    (l.foldl (State.biasPass w) s).regs = s.regs ∧ (l.foldl (State.biasPass w) s).PagesAsked ∧
      ∀ k, k ∈ (l.foldl (State.biasPass w) s).win.pages ↔ (∃ i ∈ l, k = 32 * w + i) ∨ k ∈ s.win.pages := by
  induction l generalizing s with
  | nil => exact ⟨rfl, asked, by simp⟩
  | cons i l ih =>
    have regs := State.biasPass_regs w i coh
    have coh' : (s.biasPass w i).coherent = true := by simpa only [State.coherent, State.cxl, State.reg, regs] using coh
    obtain ⟨hregs, hasked, hpages⟩ := ih coh' (asked.biasPass w i coh)
    refine ⟨hregs.trans regs, hasked, fun k => ?_⟩
    rw [List.foldl_cons, hpages, State.mem_pages_biasPass w i coh]
    simp only [List.mem_cons, exists_eq_or_imp, or_left_comm, or_assoc]

/-! #### The commands -/

theorem answers_winBiasSet {s : State} (w : Fin 8) (value : W32) (ready : s.ready = true) (on : s.memOn = true) :
    Answers (.winBiasSet w value) s (s.winBias w value) := by
  simp only [Answers, exec, execWinBiasSet]
  rw [State.regGate_of_ready _ _ _ _ ready (State.reaches_of_memOn 16 on)]

/-- Without coherence a page has the bias that is written for it, at once (R519). -/
theorem winBiasSet_at_once {s : State} (w : Fin 8) (value : W32) (ready : s.ready = true) (on : s.memOn = true) (alone : s.coherent = false) :
    ∃ t, Answers (.winBiasSet w value) s t ∧ (∀ i < 32, t.biasDevice (32 * w + i) = bit value i) ∧
      (∀ k < 256, k / 32 ≠ w.val → t.biasDevice k = s.biasDevice k) ∧ t.hostTx = s.hostTx ∧ t.mem = s.mem := by
  refine ⟨_, answers_winBiasSet w value ready on, ?_⟩
  have alone' : (s.biasKept w value).coherent = false := (s.coherent_biasKept w value).trans alone
  rw [State.winBias_eq]
  refine ⟨fun i hi => ?_, fun k _ hk => ?_, ?_, ?_⟩
  · have kept := s.biasDevice_biasKept w value (32 * w + i)
    rw [show (32 * w.val + i) / 32 = w by omega, show (32 * w.val + i) % 32 = i by omega] at kept
    have new : (∃ j ∈ s.biasNew w value, 32 * w.val + i = 32 * w + j) ↔ i ∈ s.biasNew w value := by simp
    rw [Bool.eq_iff_iff, State.biasDevice_foldl_biasPass _ _ alone', new, s.mem_biasNew value hi, kept]
    cases s.biasDevice (32 * w + i) <;> simp
  · have other : ¬ ∃ i ∈ s.biasNew w value, k = 32 * w + i := by
      rintro ⟨i, hi, rfl⟩
      have := List.mem_range.mp (List.mem_filter.mp hi).1
      omega
    rw [Bool.eq_iff_iff, State.biasDevice_foldl_biasPass _ _ alone', s.biasDevice_biasKept]
    simp [other, hk]
  · rw [State.foldl_biasPass_frame _ _ alone']
    rfl
  · rw [State.foldl_biasPass_frame _ _ alone']
    rfl

/-- In coherent operation a page that is to become DEVICE waits for the host (R519). -/
theorem winBiasSet_waits {s : State} (w : Fin 8) (value : W32) {i : Nat} (ready : s.ready = true) (on : s.memOn = true) (coh : s.coherent = true)
    (hi : i < 32) (hv : bit value i = true) (shared : s.biasDevice (32 * w + i) = false) (none : s.win.pages = []) :
    ∃ t, Answers (.winBiasSet w value) s t ∧ t.biasDevice (32 * w + i) = false ∧ 32 * w.val + i ∈ t.win.pages ∧
      .backInvalidate (2097152 * (32 * w + i)) 2097152 ∈ t.hostTx := by
  refine ⟨_, answers_winBiasSet w value ready on, ?_⟩
  have asked : (s.biasKept w value).PagesAsked := by simp [State.PagesAsked, State.biasKept, none]
  obtain ⟨hregs, hasked, hpages⟩ := State.foldl_biasPass_coherent w (s.biasNew w value) ((s.coherent_biasKept w value).trans coh) asked
  rw [State.winBias_eq]
  have waits := (hpages (32 * w.val + i)).mpr (.inl ⟨i, (s.mem_biasNew value hi).mpr ⟨hv, shared⟩, rfl⟩)
  refine ⟨?_, waits, hasked _ waits⟩
  rw [State.biasDevice, State.reg, hregs]
  exact (s.biasDevice_biasKept w value _).trans (by rw [shared]; rfl)

/-- The host's answer for a page that waits makes it DEVICE, its dirty lines written first (R519). -/
theorem backInvalidationDone_makes_device {s : State} {k : Nat} (dirty : List (Nat × Bytes)) (hk : k ∈ s.win.pages) :
    ∃ t, Answers (.backInvalidationDone (.biasPage k dirty)) s t ∧ t.biasDevice k = true ∧ k ∉ t.win.pages ∧
      (∀ j < 256, j ≠ k → t.biasDevice j = s.biasDevice j) ∧ (dirty = [] → t = { s with regs := t.regs, win := t.win }) ∧
      t = { s with regs := t.regs, win := t.win, mem := t.mem, poison := t.poison, msc := t.msc, cow := t.cow } := by
  have ans : Answers (.backInvalidationDone (.biasPage k dirty)) s
      { (s.writeDirty (2097152 * k) (2097152 * (k + 1)) dirty).setBias k true with
        win := { (s.writeDirty (2097152 * k) (2097152 * (k + 1)) dirty).win with
          pages := (s.writeDirty (2097152 * k) (2097152 * (k + 1)) dirty).win.pages.filter fun x => x ≠ k } } := by
    simp only [Answers, exec, execBackInvalidationDone, List.contains_iff_mem, hk]
    rfl
  have frame := s.writeDirty_frame (2097152 * k) (2097152 * (k + 1)) dirty
  have bias : ∀ j, (s.writeDirty (2097152 * k) (2097152 * (k + 1)) dirty).biasDevice j = s.biasDevice j := fun j => by rw [frame]; rfl
  refine ⟨_, ans, ?_, by simp, fun j _ hj => ?_, ?_, ?_⟩
  · exact (State.biasDevice_setBias ..).trans (if_pos rfl)
  · exact (State.biasDevice_setBias ..).trans ((if_neg hj).trans (bias j))
  · rintro rfl
    rfl
  · generalize s.writeDirty (2097152 * k) (2097152 * (k + 1)) dirty = u at frame ⊢
    rw [frame]
    rfl

/-- Settles O37: each command is its own case of the model, whose dirty lines reach device memory alone and whose bias pages do not meet. -/
theorem windowMovesAndBiasChanges : Obligations.WindowMovesAndBiasChanges := by
  refine ⟨⟨fun hi s base ready on hb => ?_, fun base dirty s hm lt idle held fail => backInvalidationDone_moves dirty hm lt idle held fail⟩,
    fun w value s ready on alone => winBiasSet_at_once w value ready on alone,
    fun w value i s ready on coh hi hv shared none => winBiasSet_waits w value ready on coh hi hv shared none,
    fun k dirty s _ hk => backInvalidationDone_makes_device dirty hk, fun off s => rfl⟩
  exact ⟨winMove_moves_at_once ready on hb, winMove_waits ready on hb, winMove_discarded ready on hb⟩

end Sys2Proof.Machine

/-! SUPPORT. What a command that writes tiles alone does when its effects are applied, and the tiles that a MATMUL writes. -/

namespace Sys2Proof.Machine

open Sys2Proof.Claims

/-! ### Tiles (R99, R100) -/

/-- A place in rows of `size` determines the row and the place in it. -/
theorem rowMajor_inj {size row i row' i' : Nat} (h : i < size) (h' : i' < size) (eq : row * size + i = row' * size + i') :
    row = row' ∧ i = i' := by
  have rows : row = row' := by
    have := congrArg (· / size) eq
    simpa [Nat.mul_comm _ size, Nat.mul_add_div (Nat.zero_lt_of_lt h), Nat.div_eq_of_lt h, Nat.div_eq_of_lt h'] using this
  subst rows
  exact ⟨rfl, Nat.add_left_cancel eq⟩

theorem rowMajor_lt {rows size row i : Nat} (hr : row < rows) (hi : i < size) : row * size + i < rows * size :=
  calc row * size + i < (row + 1) * size := by rw [Nat.succ_mul]; omega
    _ ≤ rows * size := Nat.mul_le_mul_right size hr

/-- The place of an element in the store of its memory determines its core, its tile and its place in the tile. -/
theorem element_in_tile_iff (size c t k u e : Nat) (ht : t < size) (hu : u < size) (he : e < 4096) :
    ((c * size + t) * 4096 ≤ (k * size + u) * 4096 + e ∧ (k * size + u) * 4096 + e < (c * size + t) * 4096 + 4096) ↔ k = c ∧ u = t := by
  constructor
  · exact fun h => rowMajor_inj hu ht (by omega)
  · rintro ⟨rfl, rfl⟩
    omega

/-- A run of 4,096 values put in place of a tile is read there, and every other tile keeps its values. -/
theorem storeGet_putTile (st : Store W32) (size c t k u e : Nat) (es : Words) (len : es.length = 4096) (ht : t < size) (hu : u < size)
    (he : e < 4096) :
    storeGet zeroWord (storePutRun zeroWord st ((c * size + t) * 4096) es) ((k * size + u) * 4096 + e) =
      if k = c ∧ u = t then es.getD e 0 else storeGet zeroWord st ((k * size + u) * 4096 + e) := by
  rw [storeGet_storePutRun, len]
  simp only [element_in_tile_iff size c t k u e ht hu he]
  split
  · next h =>
    obtain ⟨rfl, rfl⟩ := h
    rw [Nat.add_sub_cancel_left]
    rfl
  · rfl

theorem State.tileElem_setTile (s : State) {b b' : Bool} {t u e : Nat} (c k : Nat) {es : Words} (len : es.length = 4096) (ht : t < tileLimit b)
    (hu : u < tileLimit b') (he : e < 4096) :
    (s.setTile b c t es).tileElem b' k u e = if b' = b ∧ k = c ∧ u = t then es.getD e 0 else s.tileElem b' k u e := by
  cases b <;> cases b'
  · simpa [State.setTile, State.tileElem] using storeGet_putTile s.acc 32 c t k u e es len ht hu he
  · simp [State.setTile, State.tileElem]
  · simp [State.setTile, State.tileElem]
  · simpa [State.setTile, State.tileElem] using storeGet_putTile s.basin 256 c t k u e es len ht hu he

/-- A list of whole tiles, each within its memory. -/
def WholeTiles (ts : List (Bool × Nat × Words)) : Prop := ∀ t ∈ ts, t.2.2.length = 4096 ∧ t.2.1 < tileLimit t.1

theorem WholeTiles.tail {t : Bool × Nat × Words} {ts : List (Bool × Nat × Words)} (h : WholeTiles (t :: ts)) : WholeTiles ts :=
  fun x hx => h x (List.mem_cons_of_mem _ hx)

theorem State.applyTiles_cons (s : State) (c : Nat) (t : Bool × Nat × Words) (ts : List (Bool × Nat × Words)) :
    s.applyTiles c (t :: ts) = (s.setTile t.1 c t.2.1 t.2.2).applyTiles c ts := rfl

theorem State.applyTiles_frame (s : State) (c : Nat) (ts : List (Bool × Nat × Words)) :
    ∃ acc basin, s.applyTiles c ts = { s with acc := acc, basin := basin } := by
  refine foldl_inv (fun t => ∃ acc basin, t = { s with acc := acc, basin := basin }) _ ?_ ts s ⟨s.acc, s.basin, rfl⟩
  rintro _ ⟨b, u, es⟩ ⟨acc, basin, rfl⟩
  cases b <;> exact ⟨_, _, rfl⟩

/-- A tile that a list does not name keeps its values. -/
theorem State.tileElem_applyTiles_of_ne {c k u e : Nat} {b : Bool} {ts : List (Bool × Nat × Words)} (s : State) (whole : WholeTiles ts)
    (hu : u < tileLimit b) (he : e < 4096) (other : ∀ t ∈ ts, ¬(b = t.1 ∧ k = c ∧ u = t.2.1)) :
    (s.applyTiles c ts).tileElem b k u e = s.tileElem b k u e := by
  induction ts generalizing s with
  | nil => rfl
  | cons t ts ih =>
    obtain ⟨len, fits⟩ := whole t List.mem_cons_self
    rw [State.applyTiles_cons, ih _ whole.tail fun x hx => other x (List.mem_cons_of_mem _ hx), s.tileElem_setTile c k len fits hu he,
      if_neg (other t List.mem_cons_self)]

/-- A tile that a list names, always with the same values, holds those values. -/
theorem State.tileElem_applyTiles_of_mem {u e : Nat} {b : Bool} {es : Words} {ts : List (Bool × Nat × Words)} (s : State) (c : Nat)
    (whole : WholeTiles ts) (he : e < 4096) (hm : (b, u, es) ∈ ts) (same : ∀ x ∈ ts, x.1 = b → x.2.1 = u → x.2.2 = es) :
    (s.applyTiles c ts).tileElem b c u e = es.getD e 0 := by
  induction ts generalizing s with
  | nil => cases hm
  | cons t ts ih =>
    have later := fun x hx => same x (List.mem_cons_of_mem _ hx)
    obtain ⟨-, hu⟩ := whole _ hm
    rw [State.applyTiles_cons]
    by_cases again : (b, u, es) ∈ ts
    · exact ih _ whole.tail again later
    · have first : (b, u, es) = t := (List.mem_cons.mp hm).resolve_right again
      subst first
      have other : ∀ x ∈ ts, ¬(b = x.1 ∧ c = c ∧ u = x.2.1) := by
        rintro x hx ⟨rfl, -, rfl⟩
        exact again (later x hx rfl rfl ▸ hx)
      rw [State.tileElem_applyTiles_of_ne _ whole.tail hu he other, s.tileElem_setTile c c (whole _ hm).1 hu hu he, if_pos ⟨rfl, rfl, rfl⟩]

/-! ### Field -/

theorem mem_rangeBytes {l : List (Nat × Nat)} {x : Nat × Byte × Byte} (h : x ∈ rangeBytes l) : ∃ r ∈ l, r.1 ≤ x.1 ∧ x.1 < r.1 + r.2 := by
  obtain ⟨r, hr, hx⟩ := List.mem_flatMap.mp h
  exact ⟨r, hr, by simpa using mem_wholeBytes hx⟩

theorem State.fieldRead_one (s : State) (k off : Nat) : s.fieldRead k off 1 = [storeGet zeroByte s.field (k * 2 ^ 23 + off)] := by
  simp [State.fieldRead]

/-- Bytes of Field that become free values change no byte at another place. -/
theorem State.fieldRead_freeField_of_ne (s : State) {c k off : Nat} {bs : List (Nat × Byte × Byte)}
    (h : ∀ x ∈ bs, c * 2 ^ 23 + x.1 ≠ k * 2 ^ 23 + off) : (s.freeField c bs).fieldRead k off 1 = s.fieldRead k off 1 := by
  have get : storeGet memDefault (s.freeField c bs).field (k * 2 ^ 23 + off) = storeGet memDefault s.field (k * 2 ^ 23 + off) := by
    refine putMasked_of_ne _ s.field _ fun y hy => ?_
    obtain ⟨z, hz, rfl⟩ := List.mem_map.mp hy
    obtain ⟨i, hi, rfl⟩ := List.mem_mapIdx.mp hz
    exact h bs[i] (List.getElem_mem hi)
  rw [State.fieldRead_one, State.fieldRead_one]
  exact congrArg (fun v => [v]) get

/-! ### Device memory -/

theorem coversLine_nil (l : Nat) : coversLine [] l = false := rfl

/-- A write of nothing changes nothing. -/
theorem State.write_nil (s : State) (who : Writer) : s.write who [] = s := by
  have nothing : s.apply who [] [] = s := by
    have poison : s.poison.filter (fun e => ! coversLine [] e.1) = s.poison := List.filter_eq_self.mpr fun e _ => by rw [coversLine_nil]; rfl
    simp only [State.apply, poison]
    rfl
  simp only [State.write]
  split
  · simp only [List.filter_nil, nothing]
    rw [show pagesOf [] [] = [] from rfl]
    simp
  · exact nothing

/-! ### Effects on tiles and staging regions alone -/

/-- What a command does is to read, to write whole tiles and their HOLD masks, and to stage blocks in Field. -/
structure Eff.TilesOnly (e : Eff) : Prop where
  freeTiles : e.freeTiles = []
  field     : e.field = []
  writes    : e.writes = []
  hist      : e.hist = []
  stats     : e.stats = []

theorem State.setHolds_frame (s : State) (c : Nat) (l : List (Bool × Nat × Nat)) :
    ∃ acc basin, l.foldl (fun s h => s.setHold h.1 c h.2.1 h.2.2) s = { s with accHold := acc, basinHold := basin } := by
  refine foldl_inv (fun t => ∃ acc basin, t = { s with accHold := acc, basinHold := basin }) _ ?_ l s ⟨s.accHold, s.basinHold, rfl⟩
  rintro _ ⟨b, u, v⟩ ⟨acc, basin, rfl⟩
  cases b <;> exact ⟨_, _, rfl⟩

section

variable {e : Eff} (only : e.TilesOnly)

include only

/-- Such a command makes no write that could stop it. -/
theorem State.effFault_of_tilesOnly (s : State) (m : Nat) : s.effFault m e = e.fault := by
  simp only [State.effFault, only.writes, only.hist, only.stats]
  split <;> exact Eq.symm ‹_›

/-- The tiles and the staging regions change as applyTiles and freeField say; the rest is HOLD masks, the MSC and draws of free values. -/
theorem State.applyEff_of_tilesOnly (s : State) (p id c : Nat) :
    ∃ accHold basinHold msc, s.applyEff p id c e =
      { (s.applyTiles c e.tiles).freeField c (rangeBytes e.scratch) with accHold := accHold, basinHold := basinHold, msc := msc } := by
  obtain ⟨accHold, basinHold, holds⟩ := ((s.applyTiles c e.tiles).freeField c (rangeBytes e.scratch)).setHolds_frame c e.holds
  have eq : s.applyEff p id c e =
      (e.holds.foldl (fun s h => s.setHold h.1 c h.2.1 h.2.2) ((s.applyTiles c e.tiles).freeField c (rangeBytes e.scratch))).mscRead
        (.cmd p id) e.reads := by
    simp only [State.applyEff, only.freeTiles, only.field, only.writes, only.hist, only.stats, State.write_nil]
    rfl
  rw [eq, holds]
  exact ⟨_, _, _, rfl⟩

theorem State.applyEff_frame_of_tilesOnly (s : State) (p id c : Nat) :
    ∃ acc basin field free accHold basinHold msc, s.applyEff p id c e =
      { s with acc := acc, basin := basin, field := field, free := free, accHold := accHold, basinHold := basinHold, msc := msc } := by
  obtain ⟨accHold, basinHold, msc, eq⟩ := s.applyEff_of_tilesOnly only p id c
  obtain ⟨acc, basin, tiles⟩ := s.applyTiles_frame c e.tiles
  rw [eq, tiles]
  exact ⟨_, _, _, _, _, _, _, rfl⟩

theorem State.tileElem_applyEff_of_tilesOnly (s : State) (p id c : Nat) (b : Bool) (k u x : Nat) :
    (s.applyEff p id c e).tileElem b k u x = (s.applyTiles c e.tiles).tileElem b k u x := by
  obtain ⟨accHold, basinHold, msc, eq⟩ := s.applyEff_of_tilesOnly only p id c
  rw [eq]
  rfl

/-- Of Field, a command changes its staging regions in its own core. -/
theorem State.fieldRead_applyEff_of_tilesOnly (s : State) (p id c : Nat) {k off : Nat} (fits : ∀ r ∈ e.scratch, r.1 + r.2 ≤ 2 ^ 23)
    (ho : off < 2 ^ 23) (out : k ≠ c ∨ ∀ r ∈ e.scratch, off < r.1 ∨ r.1 + r.2 ≤ off) :
    (s.applyEff p id c e).fieldRead k off 1 = s.fieldRead k off 1 := by
  obtain ⟨accHold, basinHold, msc, eq⟩ := s.applyEff_of_tilesOnly only p id c
  obtain ⟨acc, basin, tiles⟩ := s.applyTiles_frame c e.tiles
  rw [eq, tiles]
  refine State.fieldRead_freeField_of_ne { s with acc := acc, basin := basin } fun x hx => ?_
  obtain ⟨r, hr, lo, hi⟩ := mem_rangeBytes hx
  have := fits r hr
  rcases out with core | out
  · omega
  · have := out r hr
    omega

end

/-! ### The start of a command in a core -/

/-- The oldest command of a core starts where its path and all that it depends on are free, and leaves its effects where nothing stops it
(R93, R94); the corrected errors of the core are counted (R98). -/
theorem answers_coreCmdStart {p c : Fin 16} {m : Nat} {s : State} {i : Issued} (n : Nat) (oldest : s.oldest p c = some i)
    (owner : s.owner p = some m) (running : s.running = true) (path : s.pathBusy p c i = false)
    (foot : s.footBusy p c i.id (tileFoot i.words) = false) {e : Eff} (start : s.tileStart m (16 * p + c) (rankOf i.words c) i = e)
    (fault : (s.bump (offCore (16 * p + c) 0x34) n).effFault m e = none) :
    Answers (.coreCmdStart p c ⟨n, false⟩) s
      (((s.bump (offCore (16 * p + c) 0x34) n).applyEff p i.id (16 * p + c) e).setIssued p
        (i.setRun ⟨c, if unfinished i then .started else .done, e.ctr, e.keep⟩)) := by
  simp [Answers, exec, execCoreCmdStart, oldest, owner, running, path, foot, start, fault]

theorem State.reg_bump (s : State) (o q n : Nat) : (s.bump o n).reg q = if q = o then satAdd (s.reg q) n else s.reg q := by
  rw [State.bump, State.reg_setReg]
  split
  · next h => rw [h]
  · rfl

/-! ### What a MATMUL does when it starts -/

/-- The tiles of some block rows of the shape, as a MATMUL computes them. -/
def State.mmTiles (s : State) (c : Nat) (d : Mm) (r : Nat) (gens : List (Nat × Nat)) (skip : Nat → Nat → Bool) (clear : Bool) (rows : List Nat) :
    List (Bool × Nat × Words) :=
  rows.flatMap fun tr => (List.range d.nt).map fun tc => (d.dest, d.base + tr * d.nt + tc, s.mmTile c d r gens skip clear tr tc)

theorem State.mmTile_length (s : State) (c : Nat) (d : Mm) (r : Nat) (gens : List (Nat × Nat)) (skip : Nat → Nat → Bool) (clear : Bool)
    (tr tc : Nat) : (s.mmTile c d r gens skip clear tr tc).length = 4096 := by
  simp [State.mmTile]

/-- Element (x, y) of a tile, over the k-steps that are not skipped (R103, R128). -/
theorem State.mmTile_getD (s : State) (c : Nat) (d : Mm) (r : Nat) (gens : List (Nat × Nat)) (skip : Nat → Nat → Bool) (clear : Bool)
    (tr tc : Nat) {x y : Nat} (hx : x < 64) (hy : y < 64) :
    (s.mmTile c d r gens skip clear tr tc).getD (64 * x + y) 0 = s.mmElem c d r gens skip
      (if clear then f32zero else s.tileElem d.dest c (d.base + tr * d.nt + tc) (64 * x + y)) (64 * tr + x) (64 * tc + y) := by
  have row : (64 * x + y) / 64 = x := by omega
  have col : (64 * x + y) % 64 = y := by omega
  rw [List.getD_eq_getElem?_getD, List.getElem?_eq_getElem (by rw [State.mmTile_length]; omega), Option.getD_some]
  simp only [State.mmTile, List.getElem_map, List.getElem_range, row, col, Nat.mul_comm tr 64, Nat.mul_comm tc 64]

section

variable {d : Mm} {rows : List Nat} (s : State) {u : State} (c r : Nat) (gens : List (Nat × Nat)) (skip : Nat → Nat → Bool) (clear : Bool)
  (inShape : ∀ tr ∈ rows, tr < d.mt) (fits : d.base + d.mt * d.nt ≤ tileLimit d.dest)

theorem State.mem_mmTiles {x : Bool × Nat × Words} : x ∈ s.mmTiles c d r gens skip clear rows ↔
    ∃ tr ∈ rows, ∃ tc < d.nt, (d.dest, d.base + tr * d.nt + tc, s.mmTile c d r gens skip clear tr tc) = x := by
  simp [State.mmTiles]

include inShape fits

theorem State.mmTiles_whole : WholeTiles (s.mmTiles c d r gens skip clear rows) := by
  intro x hx
  obtain ⟨tr, hr, tc, hc, rfl⟩ := s.mem_mmTiles c r gens skip clear |>.mp hx
  have := rowMajor_lt (inShape tr hr) hc
  dsimp only
  exact ⟨s.mmTile_length .., by omega⟩

/-- The tiles of the block rows hold their values. -/
theorem State.tileElem_mmTiles_of_mem {tr tc x y : Nat} (hr : tr ∈ rows) (hc : tc < d.nt) (hx : x < 64) (hy : y < 64) :
    (u.applyTiles c (s.mmTiles c d r gens skip clear rows)).tileElem d.dest c (d.base + tr * d.nt + tc) (64 * x + y) =
      s.mmElem c d r gens skip (if clear then f32zero else s.tileElem d.dest c (d.base + tr * d.nt + tc) (64 * x + y))
        (64 * tr + x) (64 * tc + y) := by
  have named := s.mem_mmTiles c r gens skip clear |>.mpr ⟨tr, hr, tc, hc, rfl⟩
  rw [u.tileElem_applyTiles_of_mem c (s.mmTiles_whole c r gens skip clear inShape fits) (by omega) named ?_, s.mmTile_getD _ _ _ _ _ _ _ _ hx hy]
  intro z hz _ place
  obtain ⟨tr', -, tc', hc', rfl⟩ := s.mem_mmTiles c r gens skip clear |>.mp hz
  obtain ⟨rfl, rfl⟩ := rowMajor_inj hc' hc (by simpa only [Nat.add_assoc, Nat.add_left_cancel_iff] using place)
  dsimp only

/-- Every tile outside the run of the shape, and every tile of another core or memory, keeps its values. -/
theorem State.tileElem_mmTiles_of_outside {b : Bool} {k tile x : Nat} (hx : x < 4096) (ht : tile < tileLimit b)
    (out : b ≠ d.dest ∨ k ≠ c ∨ tile < d.base ∨ d.base + d.mt * d.nt ≤ tile) :
    (u.applyTiles c (s.mmTiles c d r gens skip clear rows)).tileElem b k tile x = u.tileElem b k tile x := by
  refine u.tileElem_applyTiles_of_ne (s.mmTiles_whole c r gens skip clear inShape fits) ht hx fun z hz => ?_
  obtain ⟨tr, hr, tc, hc, rfl⟩ := s.mem_mmTiles c r gens skip clear |>.mp hz
  have := rowMajor_lt (inShape tr hr) hc
  rintro ⟨memory, core, place⟩
  dsimp only at place
  rcases out with otherMemory | otherCore | outside
  · exact otherMemory memory
  · exact otherCore core
  · omega

end

/-- The staging regions of a MATMUL that the issue checks let pass lie in Field (R142). -/
theorem Mm.stageRange_fits {d : Mm} (ok : d.fieldBad = false) :
    ∀ r ∈ [stageRange d.a d.stageA d.slotA, stageRange d.b d.stageB d.slotB], r.1 + r.2 ≤ 2 ^ 23 := by
  simp only [Mm.fieldBad, pastField, Bool.or_eq_false_iff, decide_eq_false_iff_not] at ok
  obtain ⟨⟨⟨⟨a, b⟩, -⟩, -⟩, -⟩ := ok
  simp only [List.forall_mem_cons, List.not_mem_nil, false_implies, implies_true, and_true]
  omega

theorem State.mmStart_tilesOnly (s : State) (m c r : Nat) (ws : Words) (gens : List (Nat × Nat)) : (s.mmStart m c r ws gens).TilesOnly :=
  ⟨rfl, rfl, rfl, rfl, rfl⟩

theorem State.mmStart_scratch (s : State) (m c r : Nat) (ws : Words) (gens : List (Nat × Nat)) :
    (s.mmStart m c r ws gens).scratch =
      [stageRange (mmOf ws).a (mmOf ws).stageA (mmOf ws).slotA, stageRange (mmOf ws).b (mmOf ws).stageB (mmOf ws).slotB] := rfl

theorem State.mmStart_tiles (s : State) (m c r : Nat) (ws : Words) (gens : List (Nat × Nat)) :
    (s.mmStart m c r ws gens).tiles = s.mmTiles c (mmOf ws) r gens (fun ks rb => (s.mmSkipped c (mmOf ws) r gens).contains (ks, rb))
      (mmOf ws).clear (List.range (mmOf ws).mt) := rfl

/-- A MATMUL that is not predictive skips no block (R218). -/
theorem State.mmSkipped_of_plain (s : State) (c : Nat) {d : Mm} (r : Nat) (gens : List (Nat × Nat)) (plain : d.spec = 0) :
    s.mmSkipped c d r gens = [] := by
  simp [State.mmSkipped, State.mmPredicted, plain]

theorem State.mmStart_tiles_of_plain (s : State) (m c r : Nat) (ws : Words) (gens : List (Nat × Nat)) (plain : (mmOf ws).spec = 0) :
    (s.mmStart m c r ws gens).tiles = s.mmTiles c (mmOf ws) r gens (fun _ _ => false) (mmOf ws).clear (List.range (mmOf ws).mt) := by
  rw [State.mmStart_tiles, s.mmSkipped_of_plain c r gens plain]
  rfl

/-- A command of TYPE 0x01 is a MATMUL (R124). -/
theorem State.tileStart_of_matmul (s : State) (m c r : Nat) {i : Issued} (type : hdrType i.words = 0x01) :
    s.tileStart m c r i = s.mmStart m c r i.words i.gens := by
  simp only [State.tileStart, type]

/-- Settles O16: a plain MATMUL does its whole work as it starts (the model's choice, log entry 19), and its effects are its tiles, of which no two share
a place, and its staging regions. -/
theorem matmulWritesItsTiles : Obligations.MatmulWritesItsTiles := by
  rintro p c m n s i d oldest owner running path foot type rfl plain fits field fault
  have start := s.tileStart_of_matmul m (16 * p + c) (rankOf i.words c) type
  have only := s.mmStart_tilesOnly m (16 * p + c) (rankOf i.words c) i.words i.gens
  have scratch := s.mmStart_scratch m (16 * p + c) (rankOf i.words c) i.words i.gens
  have tiles := s.mmStart_tiles_of_plain m (16 * p + c) (rankOf i.words c) i.words i.gens plain
  rw [start, State.effFault_of_tilesOnly only] at fault
  refine ⟨_, answers_coreCmdStart n oldest owner running path foot start ((State.effFault_of_tilesOnly only ..).trans fault), ?_⟩
  generalize s.mmStart m (16 * p + c) (rankOf i.words c) i.words i.gens = e at only scratch tiles
  have rowsInShape : ∀ tr ∈ List.range (mmOf i.words).mt, tr < (mmOf i.words).mt := fun _ => List.mem_range.mp
  refine ⟨fun tr hr tc hc x hx y hy => ?_, fun b k tile x hx ht out => ?_, fun k off ho out => ?_, ?_⟩
  · refine (State.tileElem_applyEff_of_tilesOnly only ..).trans ?_
    rw [tiles]
    exact s.tileElem_mmTiles_of_mem _ _ _ _ _ rowsInShape fits (List.mem_range.mpr hr) hc hx hy
  · refine (State.tileElem_applyEff_of_tilesOnly only ..).trans ?_
    rw [tiles]
    exact s.tileElem_mmTiles_of_outside _ _ _ _ _ rowsInShape fits hx ht out
  · exact State.fieldRead_applyEff_of_tilesOnly only _ _ _ _ (scratch ▸ Mm.stageRange_fits field) ho (scratch ▸ out)
  · obtain ⟨acc, basin, bytes, free, accHold, basinHold, msc, frame⟩ :=
      (s.bump (offCore (16 * p + c) 0x34) n).applyEff_frame_of_tilesOnly only p i.id (16 * p + c)
    rw [frame]
    exact ⟨fun _ => rfl, rfl, rfl, fun o => s.reg_bump _ o n⟩

end Sys2Proof.Machine

/-! SUPPORT. What a PCC does with the command it has reached, the fields of the DMA that delivers a page, and the DMAs that a PAGE_WALK emits. -/

namespace Sys2Proof.Machine

open Sys2Proof.Claims

/-! ### Words and bytes -/

theorem bits_lt (w : W32) (msb lsb : Nat) : bits w msb lsb < 2 ^ (msb + 1 - lsb) := Nat.mod_lt _ (Nat.two_pow_pos _)

/-- A number written at bit `lsb` of a word is read back from there. -/
theorem bits_ofNat_shifted {n msb lsb : Nat} (fits : n < 2 ^ (msb + 1 - lsb)) (inWord : n * 2 ^ lsb < 2 ^ 32) :
    bits (BitVec.ofNat 32 (n * 2 ^ lsb)) msb lsb = n := by
  rw [bits, BitVec.toNat_ofNat, Nat.mod_eq_of_lt inWord, Nat.shiftRight_eq_div_pow, Nat.mul_div_cancel _ (Nat.two_pow_pos _), Nat.mod_eq_of_lt fits]

/-- A number is read back from the two words that hold it (R4). -/
theorem toNat_ofNat_halves {n : Nat} (fits : n < 2 ^ 64) : (BitVec.ofNat 32 n).toNat + (BitVec.ofNat 32 (n / 2 ^ 32)).toNat * 2 ^ 32 = n := by
  simp only [BitVec.toNat_ofNat]
  omega

theorem leNat_lt (b : Bytes) : leNat b < 256 ^ b.length := by
  induction b with
  | nil => simp [leNat]
  | cons x r ih =>
    have := x.isLt
    rw [leNat, List.length_cons, Nat.pow_succ]
    omega

theorem State.length_read (s : State) (a n : Nat) : (s.read a n).length = n := by simp [State.read]

/-- The positions of a mask lie among the 16 of a plain. -/
theorem lt_of_mem_maskPos {mask k : Nat} (h : k ∈ maskPos mask) : k < 16 := List.mem_range.mp (List.mem_filter.mp h).1

theorem maskPos_getD_lt (mask i : Nat) : (maskPos mask).getD i 0 < 16 := by
  rw [List.getD_eq_getElem?_getD]
  cases at_i : (maskPos mask)[i]? with
  | none => decide
  | some k => exact lt_of_mem_maskPos (List.mem_of_getElem? at_i)

/-! ### The PCC and the command it holds (R180) -/

/-- A PCC that reaches a command acts on it. -/
theorem State.reach_of_atCommand {s : State} {p : Fin 16} {m : Nat} {ws : Words} {type : Nat} (reached : AtCommand s p m ws type)
    (k : State → Nat → Words → State) : s.reach p type k = k s m ws := by
  obtain ⟨owner, fetched, type, running, free, issuing, hold, pass⟩ := reached
  simp [State.reach, owner, fetched, type, running, free, issuing, hold, pass]

@[simp] theorem State.plain_addP (s : State) (p word n q : Nat) : (s.addP p word n).plain q = s.plain q := rfl
@[simp] theorem State.plain_mscRead (s : State) (who : Writer) (runs : List (Nat × Nat)) (q : Nat) : (s.mscRead who runs).plain q = s.plain q := rfl
@[simp] theorem State.ctx_mscRead (s : State) (who : Writer) (runs : List (Nat × Nat)) (m : Nat) : (s.mscRead who runs).ctx m = s.ctx m := rfl

theorem State.plain_advance_same {s : State} {p : Nat} {ws : Words} (fetched : (s.plain p).fetched = some ws) :
    (s.advance p).plain p = wentOn (s.plain p) ws := by
  simp [State.advance, wentOn, fetched]

/-! ### The DMA that delivers a page (R281, R284) -/

/-- The mask of the cores that page `q` of a walk goes to. -/
def Pw.pageMask (d : Pw) (q : Nat) : Nat := if d.mcast then d.mask else 2 ^ (maskPos d.mask).getD (q / d.per) 0

/-- The slot of Field that page `q` of a walk goes to. -/
def Pw.pageSlot (d : Pw) (q : Nat) : Nat := if d.mcast then q else q % d.per

theorem pwOf_mask_lt (ws : Words) : (pwOf ws).mask < 2 ^ 16 := bits_lt ..

theorem Pw.pageMask_lt {d : Pw} (mask : d.mask < 2 ^ 16) (q : Nat) : d.pageMask q < 2 ^ 16 := by
  rw [Pw.pageMask]
  split
  · exact mask
  · exact Nat.pow_lt_pow_right (by decide) (maskPos_getD_lt ..)

section

variable (ws : Words) (d : Pw) (q e : Nat)

theorem dmOf_pageJob_mode : (dmOf (pageJob ws d q e)).mode = if e % 2 = 1 then 1 else 3 := by
  have field : (dmOf (pageJob ws d q e)).mode = bits (BitVec.ofNat 32 ((if e % 2 = 1 then 1 else 3) * 2 ^ 30)) 31 30 := by
    simp [dmOf, pageJob, wordAt]
  rw [field]
  exact bits_ofNat_shifted (by split <;> decide) (by split <;> decide)

theorem dmOf_pageJob_mask (h : d.mask < 2 ^ 16) : (dmOf (pageJob ws d q e)).mask = d.pageMask q := by
  have fits := Pw.pageMask_lt h q
  have low := bits_ofNat_shifted (n := d.pageMask q) (msb := 15) (lsb := 0) fits (by omega)
  rwa [Nat.pow_zero, Nat.mul_one] at low

theorem dmOf_pageJob_bytes (h : d.bytes < 2 ^ 32) : (dmOf (pageJob ws d q e)).bytes = d.bytes := Nat.mod_eq_of_lt h

theorem dmOf_pageJob_srcBase (h : e < 2 ^ 64) : (dmOf (pageJob ws d q e)).src.base = if e % 2 = 1 then e / 4096 * 4096 else 0 := by
  have field : (dmOf (pageJob ws d q e)).src.base = (BitVec.ofNat 32 (if e % 2 = 1 then e / 4096 * 4096 else 0)).toNat +
      (BitVec.ofNat 32 ((if e % 2 = 1 then e / 4096 * 4096 else 0) / 2 ^ 32)).toNat * 2 ^ 32 := by
    simp [dmOf, trefAt, dword, pageJob, wordAt]
  rw [field]
  exact toNat_ofNat_halves (by split <;> omega)

theorem dmOf_pageJob_dstField : (dmOf (pageJob ws d q e)).dst.field = true := by
  have field : (dmOf (pageJob ws d q e)).dst.field = bit 0x10#32 4 := by
    simp only [dmOf, trefAt, pageJob, wordAt, List.getD_cons_succ, List.getD_cons_zero]
  rw [field]
  decide

theorem dmOf_pageJob_dstBase (h : d.dest + d.pageSlot q * d.bytes < 2 ^ 32) :
    (dmOf (pageJob ws d q e)).dst.base = d.dest + d.pageSlot q * d.bytes := by
  have field : (dmOf (pageJob ws d q e)).dst.base = (BitVec.ofNat 32 (d.dest + d.pageSlot q * d.bytes)).toNat := by
    simp [dmOf, trefAt, dword, pageJob, wordAt, Pw.pageSlot]
  rw [field, BitVec.toNat_ofNat, Nat.mod_eq_of_lt h]

end

/-! ### What the checks of a PAGE_WALK say (R282) -/

/-- A check that finds no fault has passed its first condition and the rest. -/
theorem and_of_ite_some_eq_none {α : Type} {c : Prop} [Decidable c] {x : α} {rest : Option α} (h : (if c then some x else rest) = none) :
    ¬ c ∧ rest = none := by
  split at h
  · cases h
  · next not => exact ⟨not, h⟩

/-- The slots that a PAGE_WALK which passes its checks names lie in Field. -/
theorem slots_in_field_of_pwCheck {ws : Words} (pass : pwCheck ws = none) : (pwOf ws).dest + (pwOf ws).slots * (pwOf ws).bytes ≤ 0x600000 := by
  obtain ⟨-, pass⟩ := and_of_ite_some_eq_none pass
  obtain ⟨-, pass⟩ := and_of_ite_some_eq_none pass
  obtain ⟨range, -⟩ := and_of_ite_some_eq_none pass
  simpa [pastField] using range

/-- Each page of such a walk goes to one of these slots. -/
theorem pageSlot_lt_of_pwCheck {ws : Words} (pass : pwCheck ws = none) {q : Nat} (hq : q < (pwOf ws).count) :
    (pwOf ws).pageSlot q < (pwOf ws).slots := by
  obtain ⟨-, pass⟩ := and_of_ite_some_eq_none pass
  obtain ⟨params, -⟩ := and_of_ite_some_eq_none pass
  cases cast : (pwOf ws).mcast with
  | true => simpa [Pw.pageSlot, Pw.slots, cast] using hq
  | false =>
    have perCore : (pwOf ws).per ≠ 0 := fun zero => params (by simp [cast, zero])
    simpa [Pw.pageSlot, Pw.slots, cast] using Nat.mod_lt q (Nat.pos_of_ne_zero perCore)

/-! ### The walk (R281, R283, R284, R286) -/

/-- The entry of page `q` of a walk in its page table (R281). -/
def State.walkEntry (s : State) (d : Pw) (q : Nat) : Nat := leNat (s.read (d.table + 8 * d.first + 8 * q) 8)

theorem State.leNat_read_eq_walkEntry (s : State) (d : Pw) (q : Nat) : leNat (s.read (d.table + 8 * d.first + 8 * q) 8) = s.walkEntry d q := rfl

theorem State.walkEntry_lt (s : State) (d : Pw) (q : Nat) : s.walkEntry d q < 2 ^ 64 := by
  have := leNat_lt (s.read (d.table + 8 * d.first + 8 * q) 8)
  rwa [State.length_read] at this

/-- The DMA that delivers page `q` of the walk `ws` of plain `p` in context `m`. -/
def State.walkJob (s : State) (p m : Nat) (ws : Words) (q : Nat) : Job :=
  ⟨(s.plain p).next + q, pageJob ws (pwOf ws) q (s.walkEntry (pwOf ws) q), (s.ctx m).step, (s.plain p).pos + descBytes (wordAt ws 0),
    (s.plain p).prologue, false, false, .queued, [], [], false⟩

/-- The DMAs of a walk, in entry order. -/
def State.walkJobs (s : State) (p m : Nat) (ws : Words) : List Job := (List.range (pwOf ws).count).map (s.walkJob p m ws)

theorem State.length_walkJobs (s : State) (p m : Nat) (ws : Words) : (s.walkJobs p m ws).length = (pwOf ws).count := by simp [State.walkJobs]

theorem State.walkJob_of_getElem? {s : State} {p m : Nat} {ws : Words} {q : Nat} {j : Job} (h : (s.walkJobs p m ws)[q]? = some j) :
    q < (pwOf ws).count ∧ s.walkJob p m ws q = j := by
  obtain ⟨lt, at_q⟩ := List.getElem?_eq_some_iff.mp h
  exact ⟨s.length_walkJobs p m ws ▸ lt, by simpa [State.walkJobs] using at_q⟩

/-- The state after a walk: its entries are read, its DMAs stand behind the jobs of its plain, its pages are counted, and the PCC goes on. -/
def State.afterWalk (s : State) (p m : Nat) (ws : Words) : State :=
  let d := pwOf ws
  let n := (((List.range d.count).map (s.walkEntry d)).filter fun e => e % 2 = 1).length
  let s' := (s.mscRead (.cmd p (s.plain p).next) [(d.table + 8 * d.first, 8 * d.count)]).setPlain p
    { s.plain p with jobs := (s.plain p).jobs ++ s.walkJobs p m ws, next := (s.plain p).next + d.count }
  (((s'.addP p 24 n).addP p 25 (d.count - n)).addP p 26 (n * d.bytes / 64)).advance p

theorem State.plain_afterWalk_same {s : State} {p : Nat} (m : Nat) {ws : Words} (fetched : (s.plain p).fetched = some ws) :
    (s.afterWalk p m ws).plain p =
      wentOn { s.plain p with jobs := (s.plain p).jobs ++ s.walkJobs p m ws, next := (s.plain p).next + (pwOf ws).count } ws := by
  rw [State.afterWalk, State.plain_advance_same (ws := ws)] <;> simp [fetched]

theorem State.afterWalk_frame (s : State) (p m : Nat) (ws : Words) :
    ∃ plains cntLive msc, s.afterWalk p m ws = { s with plains := plains, cntLive := cntLive, msc := msc } := by
  simp only [State.afterWalk, State.advance, State.addP, State.setPlain, State.mscRead]
  exact ⟨_, _, _, rfl⟩

/-- When the entries of a walk can be read and used, the walk emits its DMAs. -/
theorem answers_pageWalkEntriesRead {p : Fin 16} {m : Nat} {ws : Words} {s : State} (owner : s.owner p = some m)
    (fetched : (s.plain p).fetched = some ws) (running : s.running = true) (hold : (s.plain p).hold = .walk)
    (readable : s.readFault m [((pwOf ws).table + 8 * (pwOf ws).first, 8 * (pwOf ws).count)] = none)
    (usable : ∀ q < (pwOf ws).count, s.walkEntry (pwOf ws) q % 4096 / 2 = 0) :
    Answers (.pageWalkEntriesRead p) s (s.afterWalk p m ws) := by
  have noneBad : (((List.range (pwOf ws).count).map (s.walkEntry (pwOf ws))).any fun e => e % 4096 / 2 ≠ 0) = false := by
    simpa using usable
  have jobs : (((List.range (pwOf ws).count).map (s.walkEntry (pwOf ws))).mapIdx fun q e =>
      (⟨(s.plain p).next + q, pageJob ws (pwOf ws) q e, (s.ctx m).step, (s.plain p).pos + descBytes (wordAt ws 0), (s.plain p).prologue,
        false, false, .queued, [], [], false⟩ : Job)) = s.walkJobs p m ws :=
    List.ext_getElem (by simp [State.length_walkJobs]) fun i _ _ => by simp [State.walkJobs, State.walkJob]
  simp only [Answers, exec, execPageWalkEntriesRead, State.leNat_read_eq_walkEntry, State.plain_mscRead, State.ctx_mscRead, fetched, owner, running,
    hold, readable, noneBad, jobs, State.afterWalk, Bool.and_self, decide_true, Bool.not_true, Bool.false_eq_true, if_false]

/-- The length and the destination of a page of a walk whose checks passed fit their words, as the slots lie in Field (R282). -/
theorem dmOf_walkJob_bytes_dstBase (s : State) (p m : Nat) {ws : Words} (pass : pwCheck ws = none) {q : Nat} (hq : q < (pwOf ws).count) :
    (dmOf (s.walkJob p m ws q).words).bytes = (pwOf ws).bytes ∧
    (dmOf (s.walkJob p m ws q).words).dst.base = (pwOf ws).dest + (pwOf ws).pageSlot q * (pwOf ws).bytes := by
  have slot := pageSlot_lt_of_pwCheck pass hq
  have range := slots_in_field_of_pwCheck pass
  have upTo : ((pwOf ws).pageSlot q + 1) * (pwOf ws).bytes ≤ (pwOf ws).slots * (pwOf ws).bytes := Nat.mul_le_mul_right _ slot
  rw [Nat.succ_mul] at upTo
  exact ⟨dmOf_pageJob_bytes _ _ _ _ (by omega), dmOf_pageJob_dstBase _ _ _ _ (by omega)⟩

/-- Settles O12: a walk answers by reading its entries, and then by placing the DMAs of all its pages at once, even past the 16 that the queue holds (the
model's choice, log entry 18). The fields of a DMA fit the words of its descriptor, since the check has found the slots of the walk in Field. -/
theorem pageWalkEmitsOneDmaPerPage : Obligations.PageWalkEmitsOneDmaPerPage := by
  refine ⟨fun p m ws s reached pass => ?_, ?_⟩
  · refine ⟨s.setPlain p { s.plain p with hold := .walk }, ?_, s.plain_setPlain_same .., rfl⟩
    simp only [Answers, exec, execPageWalk, State.reach_of_atCommand reached, pass]
  · intro p m ws s d owner fetched running hold fields pass readable usable
    subst fields
    have after := s.plain_afterWalk_same m fetched
    refine ⟨s.afterWalk p m ws, s.walkJobs p m ws, answers_pageWalkEntriesRead owner fetched running hold readable usable, ?_,
      s.length_walkJobs .., ?_, ?_, ?_, ?_⟩
    · rw [after]; rfl
    · intro q j e at_q entry
      rw [entry, s.leNat_read_eq_walkEntry]
      obtain ⟨hq, rfl⟩ := State.walkJob_of_getElem? at_q
      obtain ⟨bytes, dstBase⟩ := dmOf_walkJob_bytes_dstBase s p m pass hq
      exact ⟨rfl, rfl, rfl, dmOf_pageJob_mode .., dmOf_pageJob_srcBase _ _ _ _ (s.walkEntry_lt ..), bytes, dmOf_pageJob_dstField .., dstBase,
        dmOf_pageJob_mask _ _ _ _ (pwOf_mask_lt ws)⟩
    · rw [after]; rfl
    · rw [after]; rfl
    · obtain ⟨plains, cntLive, msc, frame⟩ := s.afterWalk_frame p m ws
      rw [frame]

end Sys2Proof.Machine

/-! SUPPORT. The end of tile commands: the exchange of a norm command's ranks, and the end with its records, its signal and its references. -/

namespace Sys2Proof.Machine

open Sys2Proof.Claims

/-! ### Effects in general -/

/-- Writes one after another, each perhaps of what it finds, as the additions to histogram words and statistics lanes are (R327, R362): they change device
memory, with the writes that wait for copy-on-write, and the MSC. -/
theorem State.foldl_write_frame {α : Type} (s : State) (who : Writer) (bs : State → α → List (Nat × Byte × Byte)) (l : List α) :
    ∃ mem poison msc cow, l.foldl (fun t x => t.write who (bs t x)) s = { s with mem := mem, poison := poison, msc := msc, cow := cow } := by
  refine foldl_inv (fun t => ∃ mem poison msc cow, t = { s with mem := mem, poison := poison, msc := msc, cow := cow }) _ ?_ l s ⟨_, _, _, _, rfl⟩
  rintro t x ⟨mem, poison, msc, cow, rfl⟩
  rw [State.write_frame]
  exact ⟨_, _, _, _, rfl⟩

/-- Once its tiles are written, a command that makes no tile free changes Field, device memory, HOLD masks and the MSC, and draws free values. -/
theorem State.applyEff_after_tiles (s : State) (p id c : Nat) {e : Eff} (freesNone : e.freeTiles = []) :
    ∃ field free accHold basinHold mem poison msc cow, s.applyEff p id c e =
      { s.applyTiles c e.tiles with
        field := field, free := free, accHold := accHold, basinHold := basinHold, mem := mem, poison := poison, msc := msc, cow := cow } := by
  have tilesOnly : (s.applyTiles c e.tiles).freeTiles c (e.freeTiles.map fun t => (false, t)) = s.applyTiles c e.tiles := by rw [freesNone]; rfl
  simp only [State.applyEff, tilesOnly]
  generalize s.applyTiles c e.tiles = u
  obtain ⟨accHold, basinHold, holds⟩ := ((u.fieldWrite c e.field).freeField c (rangeBytes e.scratch)).setHolds_frame c e.holds
  simp only [holds, State.addHist, State.addStats]
  obtain ⟨mem, poison, msc, cow, stats⟩ := State.foldl_write_frame _ (.cmd p id) _ e.stats
  obtain ⟨mem', poison', msc', cow', hist⟩ := State.foldl_write_frame _ (.cmd p id) _ e.hist
  rw [stats, hist, State.write_frame]
  exact ⟨_, _, _, _, _, _, _, _, rfl⟩

/-- Tiles of Basin leave Acc as it is. -/
theorem State.applyTiles_of_basin (s : State) (c : Nat) {ts : List (Bool × Nat × Words)} (basinOnly : ∀ t ∈ ts, t.1 = true) :
    ∃ basin, s.applyTiles c ts = { s with basin := basin } := by
  induction ts generalizing s with
  | nil => exact ⟨_, rfl⟩
  | cons t ts ih =>
    obtain ⟨b, u, es⟩ := t
    obtain rfl : b = true := basinOnly _ List.mem_cons_self
    obtain ⟨basin, tail⟩ := ih (s.setTile true c u es) fun x hx => basinOnly x (List.mem_cons_of_mem _ hx)
    exact ⟨basin, by rw [State.applyTiles_cons, tail]; rfl⟩

/-! ### The core's registers and the checks of memory (R386, R397) -/

/-- The registers of the cores lie past those that a check of memory reads (R491). -/
theorem State.reg_bump_core (s : State) (c k n : Nat) {q : Nat} (below : q < 0x100000) : (s.bump (offCore c k) n).reg q = s.reg q := by
  rw [State.reg_bump, if_neg]
  simp only [offCore]
  omega

theorem State.pairVal_bump_core (s : State) (c k n : Nat) {lo : Nat} (below : lo + 4 < 0x100000) :
    (s.bump (offCore c k) n).pairVal lo = s.pairVal lo := by
  rw [State.pairVal, s.reg_bump_core c k n (by omega), s.reg_bump_core c k n below, State.pairVal]

theorem any_range_congr {k : Nat} {p q : Nat → Bool} (h : ∀ g < k, p g = q g) : (List.range k).any p = (List.range k).any q := by
  rw [Bool.eq_iff_iff, List.any_eq_true, List.any_eq_true]
  exact exists_congr fun g => and_congr_right fun hg => by rw [h g (List.mem_range.mp hg)]

theorem State.rgnCovers_bump_core (s : State) (c k n : Nat) {g : Nat} (region : g < 64) (a len : Nat) :
    (s.bump (offCore c k) n).rgnCovers g a len = s.rgnCovers g a len := by
  have base : (s.bump (offCore c k) n).rgnBase g = s.rgnBase g := s.pairVal_bump_core c k n (by simp only [offRgn]; omega)
  have size : (s.bump (offCore c k) n).rgnSize g = s.rgnSize g := by
    rw [State.rgnSize, s.reg_bump_core c k n (by simp only [offRgn]; omega), State.rgnSize]
  simp only [State.rgnCovers, base, size, s.reg_bump_core c k n (show offRgn g 0xC < 0x100000 by simp only [offRgn]; omega)]

theorem State.granted_bump_core (s : State) (c k n m a : Nat) (write : Bool) :
    (s.bump (offCore c k) n).granted m a write = s.granted m a write :=
  any_range_congr fun g region => by
    rw [s.rgnCovers_bump_core c k n region, s.reg_bump_core c k n (by simp only [offRgn]; omega)]

theorem State.ddrFailed_bump_core (s : State) (c k n : Nat) : (s.bump (offCore c k) n).ddrFailed = s.ddrFailed :=
  any_range_congr fun g channel => by rw [s.reg_bump_core c k n (by omega)]

theorem State.mapped_bump_core (s : State) (c k n a len : Nat) : (s.bump (offCore c k) n).mapped a len = s.mapped a len := by
  have size : (s.bump (offCore c k) n).ddrBytes = s.ddrBytes := s.pairVal_bump_core c k n (by omega)
  rw [State.mapped, size, State.mapped]

theorem State.refused_bump_core (s : State) (c k n : Nat) (m : Option Nat) (a len : Nat) (write : Bool) :
    (s.bump (offCore c k) n).refused m a len write = s.refused m a len write := by
  cases m <;> simp only [State.refused, s.mapped_bump_core, s.granted_bump_core, s.ddrFailed_bump_core]

/-- Corrected errors of a core change nothing about what stops a command. -/
theorem State.effFault_bump_core (s : State) (c k n m : Nat) (e : Eff) : (s.bump (offCore c k) n).effFault m e = s.effFault m e := by
  simp only [State.effFault, State.writeFault, s.refused_bump_core]

/-! ### What a norm command does as it finishes (R319 to R322) -/

theorem Eff.put_tiles (e : Eff) (field : Bool) (bs : List (Nat × Byte × Byte)) : (e.put field bs).tiles = e.tiles := by
  cases field <;> rfl

theorem Eff.put_freeTiles (e : Eff) (field : Bool) (bs : List (Nat × Byte × Byte)) : (e.put field bs).freeTiles = e.freeTiles := by
  cases field <;> rfl

section

variable (s : State) (m c r nr : Nat) (core : Nat → Nat) (ws : Words) (gens : List (Nat × Nat))

theorem State.nmFinish_freeTiles : (s.nmFinish m c r nr core ws gens).freeTiles = [] := by
  simp only [State.nmFinish]
  split <;> simp only [Eff.put_freeTiles, Eff.none]

/-- The tiles it writes are the parameter gradients of a NORM_BWD, in Basin (R322). -/
theorem State.nmFinish_tiles : ∃ gradient : Nat → Words, (s.nmFinish m c r nr core ws gens).tiles =
    if (nmOf ws).bwd && (nmOf ws).pgrad then (List.range (nmOf ws).c).map fun k => (true, (nmOf ws).basin + k, gradient k) else [] := by
  simp only [State.nmFinish]
  split <;> simp only [Eff.put_tiles] <;> exact ⟨_, rfl⟩

end

/-! ### The exchange of the ranks (R320) -/

/-- What the core of a run does once the partial sums of every rank have arrived. -/
def State.rankEff (s : State) (p m : Nat) (i : Issued) (r : CoreRun) : Eff :=
  s.nmFinish m (16 * p + r.pos) (rankOf i.words r.pos) i.runs.length (coreOf i.words (16 * p)) i.words i.gens

theorem State.rankEff_freeTiles (s : State) (p m : Nat) (i : Issued) (r : CoreRun) : (s.rankEff p m i r).freeTiles = [] := s.nmFinish_freeTiles ..

theorem State.rankEff_tiles_in_basin (s : State) (p m : Nat) (i : Issued) (r : CoreRun) : ∀ t ∈ (s.rankEff p m i r).tiles, t.1 = true := by
  obtain ⟨gradient, tiles⟩ := s.nmFinish_tiles m (16 * p + r.pos) (rankOf i.words r.pos) i.runs.length (coreOf i.words (16 * p)) i.words i.gens
  rw [State.rankEff, tiles]
  split <;> simp

theorem State.rankEff_tiles_nil (s : State) (p m : Nat) {i : Issued} (r : CoreRun) (without : (nmOf i.words).bwd = false ∨ (nmOf i.words).pgrad = false) :
    (s.rankEff p m i r).tiles = [] := by
  obtain ⟨gradient, tiles⟩ := s.nmFinish_tiles m (16 * p + r.pos) (rankOf i.words r.pos) i.runs.length (coreOf i.words (16 * p)) i.words i.gens
  rw [State.rankEff, tiles, if_neg]
  rcases without with h | h <;> simp [h]

/-- A command whose cores have finished their rows. -/
def State.exchanged (s : State) (p m : Nat) (i : Issued) : Issued :=
  { i with runs := i.runs.map fun r => { r with st := .done, ctr := (s.rankEff p m i r).ctr, keep := (s.rankEff p m i r).keep } }

/-- The effects in the cores of a command, worked out in `s`, applied to `u`. -/
def State.applyRanks (s u : State) (p m : Nat) (i : Issued) : State :=
  i.runs.foldl (fun t r => t.applyEff p i.id (16 * p + r.pos) (s.rankEff p m i r)) u

/-- The corrected errors of the core at a position, if the command names it (R98). -/
def State.countErrors (s : State) (p c n : Nat) (i : Issued) : State :=
  if i.runs.any fun r => r.pos = c then s.bump (offCore (16 * p + c) 0x34) n else s

theorem State.reg_countErrors (s : State) (p c n : Nat) (i : Issued) (o : Nat) :
    (s.countErrors p c n i).reg o =
      if o = offCore (16 * p + c) 0x34 ∧ (∃ r ∈ i.runs, r.pos = c) then satAdd (s.reg o) n else s.reg o := by
  rw [State.countErrors]
  split
  · next named =>
    have named' : ∃ r ∈ i.runs, r.pos = c := by simpa using named
    simp only [s.reg_bump, named', and_true]
  · next unnamed =>
    have unnamed' : ¬ ∃ r ∈ i.runs, r.pos = c := by simpa using unnamed
    rw [if_neg fun h => unnamed' h.2]

@[simp] theorem State.plain_countErrors (s : State) (p c n : Nat) (i : Issued) (q : Nat) : (s.countErrors p c n i).plain q = s.plain q := by
  rw [State.countErrors]; split <;> rfl
@[simp] theorem State.objs_countErrors (s : State) (p c n : Nat) (i : Issued) : (s.countErrors p c n i).objs = s.objs := by
  rw [State.countErrors]; split <;> rfl
@[simp] theorem State.ctxs_countErrors (s : State) (p c n : Nat) (i : Issued) : (s.countErrors p c n i).ctxs = s.ctxs := by
  rw [State.countErrors]; split <;> rfl
@[simp] theorem State.acc_countErrors (s : State) (p c n : Nat) (i : Issued) : (s.countErrors p c n i).acc = s.acc := by
  rw [State.countErrors]; split <;> rfl
@[simp] theorem State.basin_countErrors (s : State) (p c n : Nat) (i : Issued) : (s.countErrors p c n i).basin = s.basin := by
  rw [State.countErrors]; split <;> rfl

theorem State.effFault_countErrors (s : State) (p c n : Nat) (i : Issued) (m : Nat) (e : Eff) :
    (s.countErrors p c n i).effFault m e = s.effFault m e := by
  rw [State.countErrors]
  split
  · exact s.effFault_bump_core ..
  · rfl

/-- From `u` to `t` nothing changes but what a norm command may change as it finishes: Basin, HOLD masks, Field, device memory with the writes that wait for
copy-on-write, the MSC, and the draws of free values. -/
def NormFinished (u t : State) : Prop :=
  t = { u with basin := t.basin, field := t.field, free := t.free, accHold := t.accHold, basinHold := t.basinHold, mem := t.mem, poison := t.poison,
               msc := t.msc, cow := t.cow }

theorem NormFinished.trans {a b c : State} (first : NormFinished a b) (second : NormFinished b c) : NormFinished a c := by
  unfold NormFinished at *
  rw [second, first]

section

variable {u t : State} (h : NormFinished u t)

include h

theorem NormFinished.plain (q : Nat) : t.plain q = u.plain q := by rw [h]; rfl
theorem NormFinished.reg (o : Nat) : t.reg o = u.reg o := by rw [h]; rfl
theorem NormFinished.objs : t.objs = u.objs := by rw [h]
theorem NormFinished.ctxs : t.ctxs = u.ctxs := by rw [h]
theorem NormFinished.acc : t.acc = u.acc := by rw [h]

end

section

variable (s u : State) (p m : Nat) (i : Issued)

theorem State.normFinished_applyEff_rankEff (c : Nat) (r : CoreRun) : NormFinished u (u.applyEff p i.id c (s.rankEff p m i r)) := by
  obtain ⟨field, free, accHold, basinHold, mem, poison, msc, cow, after⟩ := u.applyEff_after_tiles p i.id c (s.rankEff_freeTiles p m i r)
  obtain ⟨basin, tiles⟩ := u.applyTiles_of_basin c (s.rankEff_tiles_in_basin p m i r)
  rw [after, tiles]
  rfl

theorem State.normFinished_applyRanks : NormFinished u (s.applyRanks u p m i) :=
  foldl_rel NormFinished (fun _ => rfl) (fun _ _ _ => .trans) _ (fun t r => s.normFinished_applyEff_rankEff t p m i _ r) i.runs u

/-- Without parameter gradients Basin keeps its tiles too. -/
theorem State.basin_applyRanks (without : (nmOf i.words).bwd = false ∨ (nmOf i.words).pgrad = false) : (s.applyRanks u p m i).basin = u.basin := by
  refine foldl_inv (fun t => t.basin = u.basin) _ (fun t r keeps => ?_) i.runs u rfl
  obtain ⟨field, free, accHold, basinHold, mem, poison, msc, cow, after⟩ := t.applyEff_after_tiles p i.id (16 * p + r.pos) (s.rankEff_freeTiles p m i r)
  rw [after, s.rankEff_tiles_nil p m r without]
  exact keeps

end

theorem State.find?_setIssued (s : State) (p : Nat) {i i' : Issued} {id : Nat} (found : (s.plain p).issued.find? (fun j => j.id = id) = some i)
    (same : i'.id = i.id) : ((s.setIssued p i').plain p).issued.find? (fun j => j.id = id) = some i' := by
  have ids (j : Issued) : (if j.id = i.id then i' else j).id = j.id := by
    split
    · next replaced => rw [same, replaced]
    · rfl
  simp only [State.setIssued, State.plain_setPlain_same, same, List.find?_map, Function.comp_def, ids, found, Option.map_some, if_true]

/-- The exchange answers with every run done, where no effect of a core stops the command. -/
theorem answers_rankExchange {p c : Fin 16} {id m : Nat} (n : Nat) {s : State} {i : Issued}
    (found : (s.plain p).issued.find? (fun j => j.id = id) = some i) (owner : s.owner p = some m) (running : s.running = true)
    (ranks : exchanges i = true) (started : ∀ r ∈ i.runs, r.st = .started) (pass : ∀ r ∈ i.runs, s.effFault m (s.rankEff p m i r) = none) :
    Answers (.rankExchange p ⟨id, c, ⟨n, false⟩⟩) s ((s.applyRanks (s.countErrors p c n i) p m i).setIssued p (s.exchanged p m i)) := by
  obtain rfl : i.id = id := by simpa using List.find?_some found
  have all : (i.runs.all fun r => r.st = .started) = true := by simpa using started
  have noFault : (i.runs.map fun r => (r, s.rankEff p m i r)).findSome? (fun e =>
      ((s.countErrors p c n i).effFault m e.2).map fun f => (e.1.pos, f)) = none := by
    simpa [List.findSome?_eq_none_iff, s.effFault_countErrors] using pass
  simp only [State.countErrors, State.rankEff] at noFault
  simp only [Answers, exec, execRankExchange, found, owner, running, ranks, all, noFault, Bool.and_false, Bool.and_self, Bool.not_true,
    Bool.false_eq_true, if_false, List.foldl_map, List.map_map]
  rfl

/-! ### The end (R123, R182, R348, R591) -/

/-- From `u` to `t` nothing changes but the shadow sets, the global counters and the draws of free values. -/
def RecordsTaken (u t : State) : Prop := t = { u with cntShadow := t.cntShadow, free := t.free, glb := t.glb }

theorem RecordsTaken.refl (u : State) : RecordsTaken u u := rfl

theorem RecordsTaken.trans {a b c : State} (first : RecordsTaken a b) (second : RecordsTaken b c) : RecordsTaken a c := by
  unfold RecordsTaken at *
  rw [second, first]

section

variable {u t : State} (h : RecordsTaken u t)

include h

theorem RecordsTaken.plain (q : Nat) : t.plain q = u.plain q := by rw [h]; rfl
theorem RecordsTaken.obj (o : Nat) : t.obj o = u.obj o := by rw [h]; rfl
theorem RecordsTaken.slots : t.slots = u.slots := by rw [h]

end

theorem State.recordsTaken_addGlb (s : State) (k n : Nat) : RecordsTaken s (s.addGlb k n) := rfl

theorem State.recordsTaken_addStalls (s : State) (path : Nat) (r : Words) : RecordsTaken s (s.addStalls path r) := by
  simp only [State.addStalls]
  split
  · exact .trans (s.recordsTaken_addGlb ..) (foldl_rel RecordsTaken .refl (fun _ _ _ => .trans) _ (fun t k => t.recordsTaken_addGlb ..) _ _)
  · split
    · exact s.recordsTaken_addGlb ..
    · exact .refl s

theorem State.recordsTaken_runCounters (s : State) (i : Issued) (r : CoreRun) : RecordsTaken s (s.runCounters i r).2 := by
  simp only [State.runCounters]
  split
  · split <;> rfl
  · rfl

/-- A trace ring that is off takes no record (R602). -/
theorem State.trace_of_off {s : State} {m : Nat} (off : bit (s.reg (0xA0208 + 0x10 * m)) 31 = false) (r : Words) (plain : Bool) :
    s.trace m r plain = s := by
  have cfg : bit (s.reg (0xA0200 + 0x10 * m + 8)) 31 = false := by rwa [show 0xA0200 + 0x10 * m + 8 = 0xA0208 + 0x10 * m by omega]
  simp [State.trace, cfg]

/-- The records of the runs of a command that has ended (R591). -/
def State.recordRuns (s : State) (p : Nat) (i : Issued) : State :=
  i.runs.foldl (fun t r => (t.runCounters i r).2.copyRecord p r.pos i.words false (t.runCounters i r).1) s

section

variable {p m : Nat} {s : State} (owner : s.owner p = some m) (off : bit (s.reg (0xA0208 + 0x10 * m)) 31 = false)

include owner off

/-- Without a trace ring a record goes to its shadow set and to the global counters alone. -/
theorem State.recordsTaken_copyRecord {t : State} (sofar : RecordsTaken s t) (pos : Nat) (ws : Words) (stopped : Bool) (counters : Words) :
    RecordsTaken s (t.copyRecord p pos ws stopped counters) := by
  simp only [State.copyRecord]
  generalize hu : State.addStalls { t with cntShadow := _, free := _ } _ _ = u
  have copied : RecordsTaken s u := by
    refine sofar.trans (.trans ?_ (hu ▸ State.recordsTaken_addStalls ..))
    rfl
  have sameOwner : u.owner p = some m := by rw [copied]; exact owner
  have sameOff : bit (u.reg (0xA0208 + 0x10 * m)) 31 = false := by rw [copied]; exact off
  simp only [sameOwner, State.trace_of_off sameOff]
  exact copied

theorem State.recordsTaken_recordRuns (i : Issued) : RecordsTaken s (s.recordRuns p i) :=
  foldl_inv (RecordsTaken s) _ (fun t r sofar =>
    State.recordsTaken_copyRecord owner off (sofar.trans (t.recordsTaken_runCounters i r)) ..) i.runs s rfl

end

theorem State.plain_congr {s t : State} (h : t.plains = s.plains) (q : Nat) : t.plain q = s.plain q := by rw [State.plain, h, State.plain]

theorem State.referenced_congr {s t : State} (h : t.plains = s.plains) (x : Slot) : t.referenced x = s.referenced x := by
  simp only [State.referenced, State.plain_congr h]

/-- A slot that a sweep leaves is CURRENT, or some command refers to it (R356). -/
theorem State.mem_slots_sweepSlots (s : State) {x : Slot} (h : x ∈ s.sweepSlots.slots) :
    x ∈ s.slots ∧ (x.current = true ∨ s.sweepSlots.referenced x = true) := by
  obtain ⟨listed, inUse⟩ := List.mem_filter.mp h
  rw [State.referenced_congr (show s.sweepSlots.plains = s.plains from rfl)]
  exact ⟨listed, (Bool.or_eq_true ..).mp inUse⟩

/-- A command issued no longer, and its references with it (R348, R356). -/
def State.releaseIssued (s : State) (p id : Nat) : State :=
  (s.setPlain p { s.plain p with issued := (s.plain p).issued.filter fun j => j.id ≠ id }).sweepSlots

theorem State.plain_releaseIssued (s : State) (p id q : Nat) : (s.releaseIssued p id).plain q =
    if q = p then { s.plain p with issued := (s.plain p).issued.filter fun j => j.id ≠ id } else s.plain q := s.plain_setPlain ..

/-- DONE_OBJ signalled where DONE_EN is set (R182). -/
def State.signalDone (s : State) (ws : Words) : State := if hdrDoneEn ws then s.addObj (hdrDoneObj ws) 1 else s

theorem State.obj_signalDone (s : State) (ws : Words) (o : Nat) :
    (s.signalDone ws).obj o = if hdrDoneEn ws = true ∧ o = hdrDoneObj ws then s.obj o + 1 else s.obj o := by
  rw [State.signalDone]
  split
  · next enabled =>
    rw [State.obj_addObj]
    split <;> simp [*]
  · next disabled => rw [if_neg fun h => disabled h.1]

theorem State.signalDone_frame (s : State) (ws : Words) : s.signalDone ws = { s with objs := (s.signalDone ws).objs } := by
  rw [State.signalDone]
  split <;> rfl

/-- The state after the end of a command. -/
def State.ended (s : State) (p : Nat) (i : Issued) : State := (((s.recordRuns p i).releaseIssued p i.id).addGlb 14 1).signalDone i.words

theorem State.obj_ended (s : State) (p : Nat) (i : Issued) (o : Nat) : (s.ended p i).obj o =
    if hdrDoneEn i.words = true ∧ o = hdrDoneObj i.words then (s.recordRuns p i).obj o + 1 else (s.recordRuns p i).obj o := State.obj_signalDone ..

theorem State.plains_ended (s : State) (p : Nat) (i : Issued) : (s.ended p i).plains = ((s.recordRuns p i).releaseIssued p i.id).plains := by
  rw [State.ended, State.signalDone_frame]
  rfl

theorem State.slots_ended (s : State) (p : Nat) (i : Issued) : (s.ended p i).slots = ((s.recordRuns p i).releaseIssued p i.id).slots := by
  rw [State.ended, State.signalDone_frame]
  rfl

/-- The end of a command changes its plain's list, the table store, the object it signals, and what its records change. -/
theorem State.ended_frame {s : State} {p : Nat} {i : Issued} (recorded : RecordsTaken s (s.recordRuns p i)) : s.ended p i =
    { s with plains := (s.ended p i).plains, slots := (s.ended p i).slots, objs := (s.ended p i).objs, cntShadow := (s.ended p i).cntShadow,
             free := (s.ended p i).free, glb := (s.ended p i).glb } := by
  rw [State.ended, State.signalDone_frame, recorded]
  rfl

/-- A command that is done everywhere, with its writes at their home slices, ends, and where no break matches the device runs on (R123, R619). -/
theorem answers_tileCmdEnd {p : Fin 16} {id m : Nat} {s : State} {i : Issued} (found : (s.plain p).issued.find? (fun j => j.id = id) = some i)
    (owner : s.owner p = some m) (running : s.running = true) (done : ∀ r ∈ i.runs, r.st = .done) (home : s.writesWait p id = false)
    (recorded : RecordsTaken s (s.recordRuns p i)) (noBreak : NoBreakAfter s m i.words) : Answers (.tileCmdEnd p id) s (s.ended p i) := by
  obtain rfl : i.id = id := by simpa using List.find?_some found
  have allDone : (i.runs.any fun r => r.st ≠ .done) = false := by simpa using done
  have passes : (s.ended p i).breakMatch m i.words true = false := by
    rw [State.ended_frame recorded]
    exact noBreak
  have runsOn : (s.ended p i).breakAfter m i.words = s.ended p i := by rw [State.breakAfter, passes]; rfl
  simp only [Answers, exec, execTileCmdEnd, found, owner, running, allDone, home, Bool.not_true, Bool.or_self, Bool.false_eq_true, if_false]
  exact congrArg Host.Outcome.next runsOn

/-- Settles O18: the effects of an exchange are those of NORM_FWD and NORM_BWD, worked out before any of them is applied, and touch neither registers nor
objects nor Acc; a command that ends takes its records without a trace, signals, and leaves its references to the sweep of the table store. -/
theorem tileCommandsFinish : Obligations.TileCommandsFinish := by
  refine ⟨?exchange, ?ends, fun _ _ _ => rfl⟩
  case exchange =>
    intro p c id m n s i found owner running ranks started pass
    have finished := s.normFinished_applyRanks (s.countErrors p c n i) p m i
    have kept : ((s.applyRanks (s.countErrors p c n i) p m i).plain p).issued.find? (fun j => j.id = id) = some i := by
      rw [finished.plain, State.plain_countErrors, found]
    refine ⟨_, s.exchanged p m i, answers_rankExchange n found owner running ranks started pass, State.find?_setIssued _ p kept rfl, rfl, ?_, ?_,
      fun o => (finished.reg o).trans (s.reg_countErrors ..), finished.objs.trans (s.objs_countErrors ..), finished.ctxs.trans (s.ctxs_countErrors ..),
      finished.acc.trans (s.acc_countErrors ..), fun without => (s.basin_applyRanks _ p m i without).trans (s.basin_countErrors ..)⟩ <;>
      simp [State.exchanged]
  case ends =>
    intro p id m s i found owner running done home off noBreak
    obtain rfl : i.id = id := by simpa using List.find?_some found
    have recorded := State.recordsTaken_recordRuns owner off i
    have plain (q : Nat) := (State.plain_congr (s.plains_ended p i) q).trans (State.plain_releaseIssued _ p i.id q)
    simp only [recorded.plain] at plain
    refine ⟨_, answers_tileCmdEnd found owner running done home recorded noBreak, fun o => ?_, ?_, fun q other => ?_, fun x hx => ?_,
      State.ended_frame recorded⟩
    · rw [State.obj_ended, recorded.obj]
    · rw [plain, if_pos rfl]
    · rw [plain, if_neg other]
    · rw [State.slots_ended] at hx
      rw [State.referenced_congr (s.plains_ended p i), ← recorded.slots]
      exact State.mem_slots_sweepSlots _ hx

end Sys2Proof.Machine

/-! SUPPORT. The table store of the compressor, and the end of a CMP_TABLE that writes no memory. -/

namespace Sys2Proof.Machine

open Sys2Proof.Claims

/-! ### The PCC goes on (R180, R619) -/

theorem State.plain_advance_ne (s : State) {p q : Nat} (other : q ≠ p) : (s.advance p).plain q = s.plain q := by
  simp [State.advance, State.plain_setPlain, other]

/-- A PCC command after which no break matches leaves the device running. -/
theorem State.pccDone_of_noBreak {s : State} {m : Nat} {ws : Words} (p : Nat) (noBreak : NoBreakAfter s m ws) : s.pccDone p m ws = s.advance p := by
  have passes : (s.advance p).breakMatch m ws true = false := noBreak
  simp [State.pccDone, State.breakAfter, passes]

/-- A CMP_TABLE whose writes are at their home slices goes on (R423). -/
theorem State.tableDone_of_home {s : State} {p m : Nat} {ws : Words} (home : s.writesWait p (s.plain p).next = false)
    (noBreak : NoBreakAfter s m ws) : s.tableDone p m ws = s.advance p := by
  simp [State.tableDone, home, State.pccDone_of_noBreak p noBreak]

/-! ### The table store (R346, R355, R356) -/

/-- A sweep keeps every CURRENT slot. -/
@[simp] theorem State.currentSlot_sweepSlots (s : State) (h : Nat) : s.sweepSlots.currentSlot h = s.currentSlot h := by
  simp only [State.currentSlot, State.sweepSlots, List.find?_filter]
  congr 1
  funext x
  cases x.current <;> simp

/-- The generation that a handle gets next (R346, R355). -/
def State.nextGen (s : State) (h : Nat) : Nat := (s.handleGen h + 1) % 16

/-- A slot of another handle as it is, one of handle `h` RETIRING (R355). -/
def Slot.retire (h : Nat) (x : Slot) : Slot := if x.handle = h then { x with current := false } else x

@[simp] theorem Slot.handle_retire (h : Nat) (x : Slot) : (x.retire h).handle = x.handle := by
  rw [Slot.retire]
  split <;> rfl

theorem Slot.current_retire_same {h : Nat} {x : Slot} (same : x.handle = h) : (x.retire h).current = false := by simp [Slot.retire, same]

theorem Slot.retire_ne {h : Nat} {x : Slot} (other : x.handle ≠ h) : x.retire h = x := by simp [Slot.retire, other]

/-- The slot that a CMP_TABLE writes. -/
def State.newSlot (s : State) (d : Ct) (table : Bytes) : Slot := ⟨d.handle, s.nextGen d.handle, d.c12, table, true⟩

/-- The table store with a table installed as the next generation of its handle (R355). -/
def State.withTable (s : State) (d : Ct) (table : Bytes) : State :=
  ({ s with slots := s.slots.map (Slot.retire d.handle) ++ [s.newSlot d table],
            cmpGen := storePut zeroNat s.cmpGen d.handle (s.nextGen d.handle) }).sweepSlots

section

variable (s : State) (d : Ct) (table : Bytes)

theorem State.handleGen_withTable_same : (s.withTable d table).handleGen d.handle = s.nextGen d.handle := storeGet_storePut_same ..

theorem State.handleGen_withTable_ne {h : Nat} (other : h ≠ d.handle) : (s.withTable d table).handleGen h = s.handleGen h :=
  storeGet_storePut_ne _ _ other

theorem State.currentSlot_withTable_same : (s.withTable d table).currentSlot d.handle = some (s.newSlot d table) := by
  have retired : ∀ x ∈ s.slots.map (Slot.retire d.handle), ¬ (decide (x.handle = d.handle) && x.current) = true := by
    intro x hx
    obtain ⟨y, -, rfl⟩ := List.mem_map.mp hx
    by_cases mine : y.handle = d.handle
    · simp [Slot.current_retire_same mine]
    · simp [mine]
  rw [State.withTable, State.currentSlot_sweepSlots, State.currentSlot, List.find?_append, List.find?_eq_none.mpr retired]
  simp [State.newSlot]

theorem State.currentSlot_withTable_ne {h : Nat} (other : h ≠ d.handle) : (s.withTable d table).currentSlot h = s.currentSlot h := by
  rw [State.withTable, State.currentSlot_sweepSlots, State.currentSlot, List.find?_append]
  have old : (s.slots.map (Slot.retire d.handle)).find? (fun x => x.handle = h && x.current) = s.currentSlot h := by
    rw [State.currentSlot]
    induction s.slots with
    | nil => rfl
    | cons x r ih =>
      by_cases mine : x.handle = d.handle
      · simp [mine, other.symm, ih]
      · simp [List.find?_cons, Slot.retire_ne mine, ih]
  simp [old, State.newSlot, other.symm]

/-- Every other generation of the handle is RETIRING. -/
theorem State.retiring_of_mem_withTable {x : Slot} (stored : x ∈ (s.withTable d table).slots) (mine : x.handle = d.handle)
    (old : x.gen ≠ s.nextGen d.handle) : x.current = false := by
  obtain ⟨listed, -⟩ := State.mem_slots_sweepSlots _ stored
  rcases List.mem_append.mp listed with retired | new
  · obtain ⟨y, -, rfl⟩ := List.mem_map.mp retired
    exact Slot.current_retire_same (by simpa using mine)
  · exact absurd (congrArg Slot.gen (List.mem_singleton.mp new)) old

end

/-! ### CMP_TABLE (R352 to R357) -/

/-- The state after a CMP_TABLE that writes no memory: the store is swept, the table is installed, and the PCC goes on. -/
def State.afterTable (s : State) (p : Nat) (d : Ct) (table : Bytes) : State := (s.sweepSlots.withTable d table).advance p

/-- A CMP_TABLE without HIST_CLEAR and OUT writes its table into the store alone. -/
theorem State.installTable_of_no_writes (s : State) (p m : Nat) {ws : Words} (table : Bytes) (clear : (ctOf ws).clear = false)
    (out : (ctOf ws).out = 0) : s.installTable p m ws table = (s.withTable (ctOf ws) table).tableDone p m ws := by
  unfold State.installTable
  simp only [clear, out, Bool.false_eq_true, if_false, if_true]
  exact congrArg (fun u : State => u.tableDone p m ws) ((State.write_nil _ _).trans (State.write_nil _ _))

/-- Where none of its writes wait and no break matches, it goes on at once. -/
theorem State.installTable_eq_afterTable {s : State} {p m : Nat} {ws : Words} (table : Bytes) (clear : (ctOf ws).clear = false)
    (out : (ctOf ws).out = 0) (home : s.writesWait p (s.plain p).next = false) (noBreak : NoBreakAfter s m ws) :
    s.sweepSlots.installTable p m ws table = s.afterTable p (ctOf ws) table :=
  (State.installTable_of_no_writes _ p m table clear out).trans (State.tableDone_of_home home noBreak)

section

variable {p : Fin 16} {m : Nat} {ws : Words} {s : State} (clear : (ctOf ws).clear = false) (out : (ctOf ws).out = 0)
  (home : s.writesWait p (s.plain p).next = false) (noBreak : NoBreakAfter s m ws)
  (ready : s.sweepSlots.slotReady (ctOf ws).handle ((s.handleGen (ctOf ws).handle + 1) % 16) = true)

include clear out home noBreak ready

/-- A LOAD that passes its checks and finds a free slot installs the bytes it has read (R353, R355). What its read makes of the MSC is left open: no
clause speaks of it, and a named MSC spares the kernel from unfolding the lookups. -/
theorem answers_cmpTable_load (reached : AtCommand s p m ws 0x24) (pass : s.ctCheck m ws = none)
    (load : (ctOf ws).source = 1) (readable : s.readFault m [((ctOf ws).src, 16)] = none)
    (valid : tableOk (ctOf ws).c12 (s.read (ctOf ws).src 16) = true) :
    ∃ msc, Answers (.cmpTable p) s (State.afterTable { s with msc := msc } p (ctOf ws) (s.read (ctOf ws).src 16)) := by
  obtain ⟨msc, served⟩ : ∃ msc, s.mscRead (.cmd p (s.plain p).next) [((ctOf ws).src, 16)] = { s with msc := msc } := ⟨_, rfl⟩
  have finds : (State.sweepSlots { s with msc := msc }).slotReady (ctOf ws).handle
      (((State.sweepSlots { s with msc := msc }).handleGen (ctOf ws).handle + 1) % 16) = true := ready
  refine ⟨msc, ?_⟩
  simp only [Answers, exec, execCmpTable, State.reach_of_atCommand reached, pass, load, readable, valid, Nat.one_ne_zero, Bool.not_true, Bool.and_false,
    Bool.false_eq_true, if_false, served, finds, if_true]
  exact congrArg Host.Outcome.next (State.installTable_eq_afterTable _ clear out home noBreak)

/-- A CMP_TABLE that waited for a slot installs its table once there is one (R355, R356). -/
theorem answers_cmpTableSlotWaitEnd_slot (owner : s.owner p = some m) (fetched : (s.plain p).fetched = some ws) (running : s.running = true)
    (hold : (s.plain p).hold = .tableSlot) :
    Answers (.cmpTableSlotWaitEnd p) s (s.afterTable p (ctOf ws) (s.plain p).table) := by
  simp only [Answers, exec, execCmpTableSlotWaitEnd, owner, fetched, running, hold, reduceCtorEq, decide_false, decide_true, Bool.and_false, Bool.true_and,
    Bool.false_eq_true, if_false, ready, if_true]
  exact congrArg Host.Outcome.next (State.installTable_eq_afterTable _ clear out home noBreak)

end

/-- One that waited for its writes goes on once they are at their home slices (R423). -/
theorem answers_cmpTableSlotWaitEnd_writes {p : Fin 16} {m : Nat} {ws : Words} {s : State} (owner : s.owner p = some m)
    (fetched : (s.plain p).fetched = some ws) (running : s.running = true) (hold : (s.plain p).hold = .tableWrites)
    (home : s.writesWait p (s.plain p).next = false) (noBreak : NoBreakAfter s m ws) :
    Answers (.cmpTableSlotWaitEnd p) s (s.advance p) := by
  simp [Answers, exec, execCmpTableSlotWaitEnd, owner, fetched, running, hold, State.tableDone_of_home home noBreak]

/-- Settles O13: whether it has just read its table or waited for a slot, a CMP_TABLE that writes no memory sweeps the store, retires the older
generations of its handle beside the new slot, and goes on; one that waited for its writes goes on alone. -/
theorem cmpTableInstallsNextGeneration : Obligations.CmpTableInstallsNextGeneration := by
  refine ⟨?installs, ?writes⟩
  case installs =>
    intro p m ws s i table form clear out home noBreak ready
    have answered : ∃ msc, Answers i s (State.afterTable { s with msc := msc } p (ctOf ws) table) := by
      rcases form with ⟨rfl, reached, pass, load, readable, rfl, valid⟩ | ⟨rfl, owner, fetched, running, hold, rfl⟩
      · exact answers_cmpTable_load clear out home noBreak ready reached pass load readable valid
      · exact ⟨s.msc, answers_cmpTableSlotWaitEnd_slot clear out home noBreak ready owner fetched running hold⟩
    have fetched : (s.plain p).fetched = some ws := by
      rcases form with ⟨-, reached, -⟩ | ⟨-, -, fetched, -⟩
      · exact reached.fetched
      · exact fetched
    obtain ⟨msc, answers⟩ := answered
    refine ⟨_, answers, State.handleGen_withTable_same _ _ table, State.currentSlot_withTable_same _ _ table, fun h other => ⟨?_, ?_⟩,
      fun _ => State.retiring_of_mem_withTable _ _ table, State.plain_advance_same fetched,
      fun q other => State.plain_advance_ne _ other, fun _ => rfl, rfl, rfl, rfl⟩
    · exact State.handleGen_withTable_ne _ _ table other
    · exact (State.currentSlot_withTable_ne _ _ table other).trans (State.currentSlot_sweepSlots ..)
  case writes =>
    intro p m ws s owner fetched running hold home noBreak
    exact ⟨s.advance p, answers_cmpTableSlotWaitEnd_writes owner fetched running hold home noBreak, State.plain_advance_same fetched,
      fun q other => s.plain_advance_ne other, rfl⟩

end Sys2Proof.Machine
